-- ==== Sys2Proof/Word.lean ====
section
/-! DEFINITION. The value types of the BCD counter block (00_scope.md R6, R8). -/

namespace Sys2Proof

/-- A BCD digit, 0..9 (00_scope.md R8: the range type, so that codes 10..15 cannot be written). -/
abbrev Digit := Fin 10

/-- A digit position, 0..3 (00_scope.md R8). Its addition is modulo 4. -/
abbrev Pos := Fin 4

/-- The 7-bit input word sampled at every clock edge (30_encoding.md R70, R71). -/
abbrev InWord := BitVec 7

/-- The 3-bit internal service vector (30_encoding.md R70, R74). -/
abbrev SvWord := BitVec 3

/-- The value of the control register: bit 0 `GIE`, bit 1 `DEN`, bit 2 `CEN` (10_state.md R27). -/
abbrev CtrlWord := BitVec 3

/-- The four digit-select lines, active low (10_state.md R28). -/
abbrev SelLines := BitVec 4

/-- A segment pattern: bits 0..6 are segments a..g, bit 7 the decimal point (20_memory.md R52). -/
abbrev SegPattern := BitVec 8

end Sys2Proof
end

