-- ==== Sys2Proof/Syntax.lean ====
section
/-! DEFINITION. The operations of the block, one constructor for each row of spec/opcode_table.json
(30_encoding.md R75). -/

namespace Sys2Proof

/-- An operation. The five of format IN stand for a whole input word: the bits of the row's pattern that the row leaves
open are operands, so that no bit of a word is dropped (30_encoding.md R72: every row that matches is performed). Two
rows may therefore spell one word in two ways; `Instr.WellFormed` names the spelling the decoder uses (log 5). The three
of format SV name the operations a cycle performs inside (30_encoding.md R70, log 6). -/
inductive Instr where
  /-- `1xxxxxx`: synchronous reset; the six other bits are ignored (43_interrupt_synchronizer.md R144). -/
  | rst (ignored : BitVec 6)
  /-- `0www1xx`: write `CTRL`, with the two event bits of the same word (43_interrupt_synchronizer.md R145). -/
  | ctrlWr (wdata : CtrlWord) (dispEv cntEv : Bool)
  /-- `0xxxx1x`: a display-timer event, with the other bits of the word (43_interrupt_synchronizer.md R146). -/
  | dispEv (wdata : CtrlWord) (ctrlWe cntEv : Bool)
  /-- `0xxxxx1`: a count-timer event, with the other bits of the word (43_interrupt_synchronizer.md R147). -/
  | cntEv (wdata : CtrlWord) (ctrlWe dispEv : Bool)
  /-- `0xxx000`: no strobe; `IN[5:3]` is don't-care (43_interrupt_synchronizer.md R148). -/
  | idle (wdata : CtrlWord)
  /-- SV `xx1`: render one position and advance the cursor (41_display_multiplexer.md R102). -/
  | dispSvc
  /-- SV `x1x`: count one count-timer service (42_counter_engine.md R120). -/
  | cntSvc
  /-- SV `11x`: add one to the BCD value (42_counter_engine.md R122). -/
  | inc
deriving DecidableEq, Repr

/-- Does the operation come from the input word (format IN), or from inside (format SV)? -/
def Instr.isInput : Instr → Bool
  | .rst _ => true
  | .ctrlWr _ _ _ => true
  | .dispEv _ _ _ => true
  | .cntEv _ _ _ => true
  | .idle _ => true
  | .dispSvc => false
  | .cntSvc => false
  | .inc => false

end Sys2Proof
end

