-- ==== Sys2Proof/WellFormed.lean ====
section
/-! DEFINITION. The one spelling of an input word: the first row of the opcode table that matches it. -/

namespace Sys2Proof

/-- A word with several strobes matches several rows (30_encoding.md R72). Its well-formed spelling is the first
matching row in the table's order RST, CTRL_WR, DISP_EV, CNT_EV, IDLE (log 5): a `dispEv` without the CTRL_WR strobe, a
`cntEv` with neither that strobe nor a display event. The other spellings have the same meaning. -/
def Instr.WellFormed : Instr → Bool
  | .rst _ => true
  | .ctrlWr _ _ _ => true
  | .dispEv _ we _ => !we
  | .cntEv _ we ev => !we && !ev
  | .idle _ => true
  | .dispSvc => true
  | .cntSvc => true
  | .inc => true

end Sys2Proof
end

