-- ==== Sys2Proof/Decode.lean ====
section
/-! DEFINITION. The two formats, the opcode table's masks and matches, the decoder and the encoder
(30_encoding.md R70 to R77). -/

namespace Sys2Proof

/-- A word in one of the two formats (30_encoding.md R70). -/
inductive CodeWord where
  /-- Format IN: what the environment drives in a cycle. -/
  | inWord (w : InWord)
  /-- Format SV: the service vector the block computes in a cycle. -/
  | svWord (w : SvWord)
deriving DecidableEq, Repr

/-- Why bits decode to no operation. -/
inductive DecodeError where
  /-- SV `0b100` or `0b101`: INC without CNT_SVC, which never occurs (30_encoding.md R77). -/
  | incWithoutCntSvc
  /-- SV `0b000`: no operation is performed inside this cycle. -/
  | noService
  /-- The value does not fit the format's bits. -/
  | tooWide
  /-- The length is neither that of an IN word nor that of an SV word. -/
  | unknownFormat
deriving DecidableEq, Repr

/-- A row of the opcode table: a word selects it when the bits under `mask` are `value` (30_encoding.md R75). -/
structure OpcodeRow (n : Nat) where
  mnemonic : String
  mask : BitVec n
  value : BitVec n
deriving DecidableEq, Repr

/-- Does a word match a row? (30_encoding.md R72) -/
def OpcodeRow.hits {n : Nat} (r : OpcodeRow n) (w : BitVec n) : Bool := (w &&& r.mask) == r.value

def rowRst : OpcodeRow 7 := ⟨"RST", 0x40#7, 0x40#7⟩
def rowCtrlWr : OpcodeRow 7 := ⟨"CTRL_WR", 0x44#7, 0x04#7⟩
def rowDispEv : OpcodeRow 7 := ⟨"DISP_EV", 0x42#7, 0x02#7⟩
def rowCntEv : OpcodeRow 7 := ⟨"CNT_EV", 0x41#7, 0x01#7⟩
def rowIdle : OpcodeRow 7 := ⟨"IDLE", 0x47#7, 0x00#7⟩
def rowDispSvc : OpcodeRow 3 := ⟨"DISP_SVC", 0b001#3, 0b001#3⟩
def rowCntSvc : OpcodeRow 3 := ⟨"CNT_SVC", 0b010#3, 0b010#3⟩
def rowInc : OpcodeRow 3 := ⟨"INC", 0b110#3, 0b110#3⟩

/-- `IN[5:0]`, the bits RST ignores (43_interrupt_synchronizer.md R144). -/
def ignoredField (w : InWord) : BitVec 6 := w.extractLsb' 0 6

/-- `CTRL_WDATA = IN[5:3]`, copied with no extension, scaling or shift (30_encoding.md R73). -/
def wdataField (w : InWord) : CtrlWord := w.extractLsb' 3 3

/-- `CTRL_WE = IN[2]` (30_encoding.md R71). -/
def ctrlWeField (w : InWord) : Bool := w.getLsbD 2

/-- `DISP_EV = IN[1]` (30_encoding.md R71). -/
def dispEvField (w : InWord) : Bool := w.getLsbD 1

/-- `CNT_EV = IN[0]` (30_encoding.md R71). -/
def cntEvField (w : InWord) : Bool := w.getLsbD 0

/-- The operation as which an IN word reads in each row, its open bits as operands. -/
def readRst (w : InWord) : Instr := .rst (ignoredField w)
def readCtrlWr (w : InWord) : Instr := .ctrlWr (wdataField w) (dispEvField w) (cntEvField w)
def readDispEv (w : InWord) : Instr := .dispEv (wdataField w) (ctrlWeField w) (cntEvField w)
def readCntEv (w : InWord) : Instr := .cntEv (wdataField w) (ctrlWeField w) (dispEvField w)
def readIdle (w : InWord) : Instr := .idle (wdataField w)

/-- The first row of the table that an IN word matches. Total: all 128 words are legal (30_encoding.md R76), and a
word that matches none of the first four rows matches IDLE. -/
def decodeIn (w : InWord) : Instr :=
  if rowRst.hits w then readRst w
  else if rowCtrlWr.hits w then readCtrlWr w
  else if rowDispEv.hits w then readDispEv w
  else if rowCntEv.hits w then readCntEv w
  else readIdle w

/-- One operation of a service vector: INC before CNT_SVC, whose pattern it sharpens (log 6). -/
def decodeSv (w : SvWord) : Except DecodeError Instr :=
  if rowInc.hits w then .ok .inc
  else if w.getLsbD 2 then .error .incWithoutCntSvc
  else if rowDispSvc.hits w then .ok .dispSvc
  else if rowCntSvc.hits w then .ok .cntSvc
  else .error .noService

/-- The decoder, total on the words of both formats. -/
def decode : CodeWord → Except DecodeError Instr
  | .inWord w => .ok (decodeIn w)
  | .svWord w => decodeSv w

/-- `[i]` if the word matches, else nothing. -/
def readingIf (hit : Bool) (i : Instr) : List Instr := if hit then [i] else []

/-- Every row an IN word matches, in the table's order (30_encoding.md R72). -/
def readingsIn (w : InWord) : List Instr :=
  readingIf (rowRst.hits w) (readRst w) ++ readingIf (rowCtrlWr.hits w) (readCtrlWr w) ++
    readingIf (rowDispEv.hits w) (readDispEv w) ++ readingIf (rowCntEv.hits w) (readCntEv w) ++
    readingIf (rowIdle.hits w) (readIdle w)

/-- Every operation a service vector performs (30_encoding.md R74); the two impossible vectors are refused by name
(R77). -/
def readingsSv (w : SvWord) : Except DecodeError (List Instr) :=
  if w.getLsbD 2 && !w.getLsbD 1 then .error .incWithoutCntSvc
  else .ok (readingIf (rowDispSvc.hits w) .dispSvc ++ readingIf (rowCntSvc.hits w) .cntSvc ++
    readingIf (rowInc.hits w) .inc)

/-- The operation in a word of `nbits` bits, with the reason where there is none. A 3-bit word is an SV word; a 7-bit
word, or that word in a byte, is an IN word. A byte cannot tell the two formats apart, and only IN is on a port, so a
byte is an IN word (log 7). -/
def decodeBits (nbits w : Nat) : Except DecodeError Instr :=
  if nbits = 3 then
    if w < 8 then decode (.svWord (BitVec.ofNat 3 w)) else .error .tooWide
  else if nbits = 7 ∨ nbits = 8 then
    if w < 128 then decode (.inWord (BitVec.ofNat 7 w)) else .error .tooWide
  else .error .unknownFormat

/-- The operation the decoder reads from an opcode-table word. -/
def decodeTableWord (nbits w : Nat) : Option Instr :=
  match decodeBits nbits w with
  | .ok i => some i
  | .error _ => none

/-! The encoder. -/

/-- The five fields of an IN word without RST, laid out as 30_encoding.md R71 has them. -/
def packIn (wdata : CtrlWord) (ctrlWe dispEv cntEv : Bool) : InWord :=
  BitVec.ofBool false ++ wdata ++ BitVec.ofBool ctrlWe ++ BitVec.ofBool dispEv ++ BitVec.ofBool cntEv

/-- An RST word: bit 6 set over the six ignored bits (30_encoding.md R75). -/
def packRst (ignored : BitVec 6) : InWord := BitVec.ofBool true ++ ignored

/-- The word of an operation (30_encoding.md R75). The SV words are those with no other operation's bit, but that INC
carries CNT_SVC's (42_counter_engine.md R121). -/
def encode : Instr → CodeWord
  | .rst ignored => .inWord (packRst ignored)
  | .ctrlWr wdata dispEv cntEv => .inWord (packIn wdata true dispEv cntEv)
  | .dispEv wdata ctrlWe cntEv => .inWord (packIn wdata ctrlWe true cntEv)
  | .cntEv wdata ctrlWe dispEv => .inWord (packIn wdata ctrlWe dispEv true)
  | .idle wdata => .inWord (packIn wdata false false false)
  | .dispSvc => .svWord 0b001#3
  | .cntSvc => .svWord 0b010#3
  | .inc => .svWord 0b110#3

end Sys2Proof
end

