-- ==== Sys2Proof/Config.lean ====
section
/-! DEFINITION. What a build of the block fixes (00_scope.md R5), and the free value the spec leaves to
the environment (93_implementation_defined.md I10). -/

namespace Sys2Proof

/-- The configuration parameters of 00_scope.md R5, fixed when the block is built. State carries one, so that a
statement about every state is a statement about every build; no operation writes it (log 1). -/
structure Config where
  /-- `TRIGGER`: count-timer services per counter increment. -/
  trigger : Nat
  /-- R5's constraint `TRIGGER >= 1`. -/
  trigger_pos : 0 < trigger
  /-- `GLYPH`: the glyph ROM, one 8-bit pattern for each digit. -/
  glyph : Vector SegPattern 10
  /-- `SEG_BLANK`: the segment port's value with every segment off. -/
  segBlank : SegPattern
  /-- `DISP_PERIOD` in microseconds, informational: no rule reads it (log 2). -/
  dispPeriodMicros : Nat
  /-- `CNT_PERIOD` in microseconds, informational: no rule reads it (log 2). -/
  cntPeriodMicros : Nat
deriving DecidableEq, Repr

/-- The input word of a cycle for which `State.inputs` holds none: any value (93 I10). It is a free value, applied to
the number of free words drawn before it; it has no body, so that nothing can be proved of it (log 4). -/
opaque Config.freeInput : Nat → InWord

end Sys2Proof
end

