-- ==== Sys2Proof/Machine/Rom.lean ====
section
/-! DEFINITION. The two constant tables and the reference configurations (41_display_multiplexer.md R100, R101;
00_scope.md R5). -/

namespace Sys2Proof.Machine

/-- `SEL_ROM[i] = 0b1111 XOR (1 << i)`: line `i` low, the other three high (41_display_multiplexer.md R100). -/
def selRom (i : Pos) : SelLines := 0b1111#4 ^^^ (1#4 <<< i.val)

/-- The segments of the port (20_memory.md R52): a top, b upper right, c lower right, d bottom, e lower left, f upper
left, g middle, and the decimal point. -/
inductive Segment where
  | a | b | c | d | e | f | g | dp
deriving DecidableEq, Repr

/-- The bit of `SEG_OUT` that drives a segment (20_memory.md R52). -/
def segmentBit : Segment → Nat
  | .a => 0
  | .b => 1
  | .c => 2
  | .d => 3
  | .e => 4
  | .f => 5
  | .g => 6
  | .dp => 7

/-- The segments the reference tables light for each digit (41_display_multiplexer.md R101). -/
def segmentsLit : Digit → List Segment
  | 0 => [.a, .b, .c, .d, .e, .f]
  | 1 => [.b, .c]
  | 2 => [.a, .b, .d, .e, .g]
  | 3 => [.a, .b, .c, .d, .g]
  | 4 => [.b, .c, .f, .g]
  | 5 => [.a, .c, .d, .f, .g]
  | 6 => [.a, .c, .d, .e, .f, .g]
  | 7 => [.a, .b, .c]
  | 8 => [.a, .b, .c, .d, .e, .f, .g]
  | 9 => [.a, .b, .c, .d, .f, .g]

/-- `GLYPH_REF_AH`, active high, decimal point off (41_display_multiplexer.md R101). -/
def glyphRefAH : Vector SegPattern 10 :=
  #v[0x3F#8, 0x06#8, 0x5B#8, 0x4F#8, 0x66#8, 0x6D#8, 0x7D#8, 0x07#8, 0x7F#8, 0x6F#8]

/-- `GLYPH_REF_AL`, active low (41_display_multiplexer.md R101). -/
def glyphRefAL : Vector SegPattern 10 :=
  #v[0xC0#8, 0xF9#8, 0xA4#8, 0xB0#8, 0x99#8, 0x92#8, 0x82#8, 0xF8#8, 0x80#8, 0x90#8]

/-- The reference values of 00_scope.md R5: `TRIGGER = 20`, `GLYPH_REF_AH`, `SEG_BLANK = 0x00`, periods of about 4.5 ms
and 50 ms (log 1, log 2). -/
def referenceConfig : Config where
  trigger := 20
  trigger_pos := by decide
  glyph := glyphRefAH
  segBlank := 0x00#8
  dispPeriodMicros := 4500
  cntPeriodMicros := 50000

/-- The reference build with active-low wiring (00_scope.md R5: `SEG_BLANK = 0xFF` with `GLYPH_REF_AL`). -/
def referenceConfigAL : Config := { referenceConfig with glyph := glyphRefAL, segBlank := 0xFF#8 }

/-- `W_Y = max(1, ceil(log2(TRIGGER)))`, the accumulator's width (00_scope.md R5). -/
def accWidth (cfg : Config) : Nat := if cfg.trigger ≤ 2 then 1 else (cfg.trigger - 1).log2 + 1

/-- The bits of state the block has, `37 + W_Y` (10_state.md R20): the digits, `X`, `Y`, two pending flags, `CTRL`,
`SEL_OUT`, `SEG_OUT`, two strobes. -/
def stateBits (cfg : Config) : Nat := 16 + 2 + accWidth cfg + 1 + 1 + 3 + 4 + 8 + 1 + 1

end Sys2Proof.Machine
end

