-- ==== Sys2Proof/Machine/Registers.lean ====
section
/-! DEFINITION. The registers of the block, all of them and nothing else (10_state.md R20), and their reset values
(10_state.md R37, R38). -/

namespace Sys2Proof.Machine

/-- The digit register file: `d0` thousands, `d1` hundreds, `d2` tens, `d3` ones (10_state.md R21). -/
structure DigitFile where
  d0 : Digit
  d1 : Digit
  d2 : Digit
  d3 : Digit
deriving DecidableEq, Repr

/-- `D[i]`: each digit is addressable by its position (10_state.md R21, 20_memory.md R51). -/
def DigitFile.read (d : DigitFile) : Pos → Digit
  | 0 => d.d0
  | 1 => d.d1
  | 2 => d.d2
  | 3 => d.d3

/-- `V(D) = 1000*D[0] + 100*D[1] + 10*D[2] + D[3]` (00_scope.md R9). -/
def DigitFile.value (d : DigitFile) : Nat :=
  1000 * d.d0.val + 100 * d.d1.val + 10 * d.d2.val + d.d3.val

/-- The packed form `{D[0], D[1], D[2], D[3]}`, the spec's notation and no port (20_memory.md R51). -/
def DigitFile.packed (d : DigitFile) : BitVec 16 :=
  BitVec.ofNat 4 d.d0.val ++ BitVec.ofNat 4 d.d1.val ++ BitVec.ofNat 4 d.d2.val ++ BitVec.ofNat 4 d.d3.val

/-- The registers of a block built with `cfg` (10_state.md R20). The types hold the ranges of 00_scope.md R8 (log 8). -/
structure Block (cfg : Config) where
  /-- The digit register file `D[0..3]` (10_state.md R21). -/
  d : DigitFile
  /-- The multiplex cursor `X` (10_state.md R24). -/
  x : Pos
  /-- The tick accumulator `Y`, in 0..TRIGGER-1 (10_state.md R25). -/
  y : Fin cfg.trigger
  /-- `PEND_D`: a display request not yet serviced (10_state.md R26). -/
  pendD : Bool
  /-- `PEND_C`: a count request not yet serviced (10_state.md R26). -/
  pendC : Bool
  /-- `CTRL = {CEN, DEN, GIE}` (10_state.md R27). -/
  ctrl : CtrlWord
  /-- `SEL_OUT[3:0]` (10_state.md R28). -/
  selOut : SelLines
  /-- `SEG_OUT[7:0]` (10_state.md R29). -/
  segOut : SegPattern
  /-- `RLD_D`, the reload strobe to the display timer (10_state.md R30). -/
  rldD : Bool
  /-- `RLD_C`, the reload strobe to the count timer (10_state.md R30). -/
  rldC : Bool
deriving DecidableEq, Repr

/-- The registers as one vector of `stateBits cfg` bits, each in the width and the order of 10_state.md R20's table, `D`
in the most significant bits. It is the model's notation: no port carries it. -/
def Block.packed {cfg : Config} (b : Block cfg) : BitVec (stateBits cfg) :=
  b.d.packed ++ BitVec.ofNat 2 b.x.val ++ BitVec.ofNat (accWidth cfg) b.y.val ++ BitVec.ofBool b.pendD ++
    BitVec.ofBool b.pendC ++ b.ctrl ++ b.selOut ++ b.segOut ++ BitVec.ofBool b.rldD ++ BitVec.ofBool b.rldC

/-- `CTRL.GIE`, bit 0 (10_state.md R27). -/
def Block.gie {cfg : Config} (b : Block cfg) : Bool := b.ctrl.getLsbD 0

/-- `CTRL.DEN`, bit 1 (10_state.md R27). -/
def Block.den {cfg : Config} (b : Block cfg) : Bool := b.ctrl.getLsbD 1

/-- `CTRL.CEN`, bit 2 (10_state.md R27). -/
def Block.cen {cfg : Config} (b : Block cfg) : Bool := b.ctrl.getLsbD 2

/-- The accumulator at zero; `TRIGGER >= 1` makes it a value of `Y`. -/
def accZero (cfg : Config) : Fin cfg.trigger := ⟨0, cfg.trigger_pos⟩

/-- `S_RESET` (10_state.md R37, R38): digits `"0000"`, no position selected, the segments blank, all else zero. -/
def resetBlock (cfg : Config) : Block cfg where
  d := ⟨0, 0, 0, 0⟩
  x := 0
  y := accZero cfg
  pendD := false
  pendC := false
  ctrl := 0b000#3
  selOut := 0b1111#4
  segOut := cfg.segBlank
  rldD := false
  rldC := false

end Sys2Proof.Machine
end

