-- ==== Sys2Proof/Machine/State.lean ====
section
/-! DEFINITION. The machine's state: the block's registers, the build's parameters beside them, and the input words the
environment will drive. -/

namespace Sys2Proof.Machine

/-- The state between two clock edges. The block has no memory (20_memory.md R50), no program counter (10_state.md R33)
and no flags (R34), so State has none. -/
structure State where
  /-- The build's parameters (00_scope.md R5), which no operation writes (log 1). -/
  cfg : Config
  /-- The block's registers (10_state.md R20). -/
  blk : Block cfg
  /-- The IN words of the cycles to come, the next cycle's first (the MODEL's own, log 3). -/
  inputs : List InWord
  /-- How many free input words were drawn so far (the MODEL's own, log 4). -/
  freeInputs : Nat
deriving DecidableEq, Repr

/-- What stops the machine: nothing. No input word and no state is an error, and the block raises no exception
(60_exceptions.md R170). Safe: the machine always goes on. -/
inductive Fault where
deriving DecidableEq, Repr

/-- Why an operation has no meaning. -/
inductive Refusal where
  /-- Raised by an arm of `exec` for an operation without a meaning; no arm raises it now. Safe. -/
  | notModelled (mnemonic : String)
deriving DecidableEq, Repr

/-- Right after reset, with the reference parameters: `S_RESET` (10_state.md R37, R38), and no input word placed. -/
def State.reset : State where
  cfg := referenceConfig
  blk := resetBlock referenceConfig
  inputs := []
  freeInputs := 0

end Sys2Proof.Machine
end

