-- ==== Sys2Proof/Machine/Operands.lean ====
section
/-! DEFINITION. What the operations read: the strobes of an input word, and the indexed reads of the digit file and the
two ROMs (30_encoding.md R71, R73; 20_memory.md R50). -/

namespace Sys2Proof.Machine

/-- The fields of an IN word whose RST bit is 0 (30_encoding.md R71). -/
structure Strobes where
  ctrlWe : Bool
  wdata : CtrlWord
  dispEv : Bool
  cntEv : Bool
deriving DecidableEq, Repr

variable {cfg : Config}

/-- `SEL_ROM[X]` (41_display_multiplexer.md R102). -/
def Block.selAtCursor (b : Block cfg) : SelLines := selRom b.x

/-- `GLYPH[D[X]]`, a direct index and no search (41_display_multiplexer.md R106). -/
def Block.glyphAtCursor (b : Block cfg) : SegPattern := cfg.glyph.get (b.d.read b.x)

end Sys2Proof.Machine
end

