-- ==== Sys2Proof/Machine/Flags.lean ====
section
/-! DEFINITION. The block has no status flags (10_state.md R34). The one carry it computes is the one between the digits
of INC, which no register holds (42_counter_engine.md R122). -/

namespace Sys2Proof.Machine

/-- One pass of the loop of R122: the sum `s` is 0..10; at 10 the digit is 0 and the carry 1. -/
def digitAdd (d : Digit) (c : Bool) : Digit × Bool :=
  if h : d.val + c.toNat < 10 then (⟨d.val + c.toNat, h⟩, false) else (0, true)

/-- `bcd_inc`: ones, tens, hundreds, thousands, with the carry into the ones 1 and the last carry discarded
(42_counter_engine.md R122, R124). -/
def bcdInc (d : DigitFile) : DigitFile :=
  let ones := digitAdd d.d3 true
  let tens := digitAdd d.d2 ones.2
  let hundreds := digitAdd d.d1 tens.2
  let thousands := digitAdd d.d0 hundreds.2
  ⟨thousands.1, hundreds.1, tens.1, ones.1⟩

end Sys2Proof.Machine
end

