-- ==== Sys2Proof/Machine/Ops.lean ====
section
/-! DEFINITION. The shared operations. Each `…Writes pre post` reads the pre-edge block `pre` alone and adds its writes
to `post`, the block being assembled for the other side of the edge (00_scope.md R7: a name reads the pre-edge value, and
every `<-` of a cycle takes effect together).

The block takes no exception (60_exceptions.md R170), so there is no exception entry here. What it has in that place is
the service: the gating of a request by the enables (43_interrupt_synchronizer.md R140 to R143), which saves no state,
changes no mode and has no return (60_exceptions.md R176, R177). -/

namespace Sys2Proof.Machine

variable {cfg : Config}

/-- `req_d = PEND_D | DISP_EV` (43_interrupt_synchronizer.md R140). -/
def Block.reqD (b : Block cfg) (dispEv : Bool) : Bool := b.pendD || dispEv

/-- `req_c = PEND_C | CNT_EV` (43_interrupt_synchronizer.md R140). -/
def Block.reqC (b : Block cfg) (cntEv : Bool) : Bool := b.pendC || cntEv

/-- `dsvc = req_d & GIE & DEN`, with the pre-edge enables (43_interrupt_synchronizer.md R141). -/
def Block.dsvc (b : Block cfg) (dispEv : Bool) : Bool := b.reqD dispEv && b.gie && b.den

/-- `csvc = req_c & GIE & CEN`, with the pre-edge enables (43_interrupt_synchronizer.md R141). -/
def Block.csvc (b : Block cfg) (cntEv : Bool) : Bool := b.reqC cntEv && b.gie && b.cen

/-- `Y + 1 == TRIGGER`: "reaches" read on the incremented value (42_counter_engine.md R121). -/
def Block.atTrigger (b : Block cfg) : Bool := b.y.val + 1 == cfg.trigger

/-- The service vector of a cycle without RST: bit 0 `DSVC`, bit 1 `CSVC`, bit 2 `INC` (30_encoding.md R74). -/
def Block.serviceVector (b : Block cfg) (dispEv cntEv : Bool) : SvWord :=
  BitVec.ofBool (b.csvc cntEv && b.atTrigger) ++ BitVec.ofBool (b.csvc cntEv) ++ BitVec.ofBool (b.dsvc dispEv)

/-- The service vector of a cycle with the input word `w`; `0b000` in an RST cycle (30_encoding.md R74). -/
def Block.serviceVectorOf (b : Block cfg) (w : InWord) : SvWord :=
  if w.getLsbD 6 then 0b000#3 else b.serviceVector (w.getLsbD 1) (w.getLsbD 0)

/-- The synchronizer's writes, in every cycle without RST (43_interrupt_synchronizer.md R142, R143). -/
def Block.syncWrites (st : Strobes) (pre post : Block cfg) : Block cfg :=
  { post with
    pendD := pre.reqD st.dispEv && !pre.dsvc st.dispEv
    pendC := pre.reqC st.cntEv && !pre.csvc st.cntEv
    rldD := pre.dsvc st.dispEv
    rldC := pre.csvc st.cntEv }

/-- The writes of DISP_SVC (41_display_multiplexer.md R102): the select row and the glyph at the cursor, and the cursor
advanced modulo 4, at one edge. -/
def Block.dispSvcWrites (pre post : Block cfg) : Block cfg :=
  { post with selOut := pre.selAtCursor, segOut := pre.glyphAtCursor, x := pre.x + 1 }

/-- The writes of INC: all four digits at one edge (42_counter_engine.md R122, 20_memory.md R56). -/
def Block.incWrites (pre post : Block cfg) : Block cfg :=
  { post with d := bcdInc pre.d }

/-- The next `Y` of a CNT_SVC that does not trigger is a value of `Y` too. -/
theorem Block.y_succ_lt (b : Block cfg) (h : ¬ b.y.val + 1 = cfg.trigger) : b.y.val + 1 < cfg.trigger := by
  have := b.y.isLt
  omega

/-- The writes of CNT_SVC (42_counter_engine.md R120): at the trigger `Y <- 0` and INC in the same cycle, else
`Y <- Y + 1`. -/
def Block.cntSvcWrites (pre post : Block cfg) : Block cfg :=
  if h : pre.y.val + 1 = cfg.trigger then pre.incWrites { post with y := accZero cfg }
  else { post with y := ⟨pre.y.val + 1, pre.y_succ_lt h⟩ }

/-- The write of CTRL_WR (43_interrupt_synchronizer.md R145). -/
def Block.ctrlWrites (st : Strobes) (post : Block cfg) : Block cfg :=
  { post with ctrl := st.wdata }

/-- Apply an operation's writes in a cycle that performs it. -/
def Block.performIf (run : Bool) (written post : Block cfg) : Block cfg := if run then written else post

/-- One clock edge without RST (43_interrupt_synchronizer.md R149). Every right-hand side reads `pre`. -/
def Block.clockEdge (pre : Block cfg) (st : Strobes) : Block cfg :=
  let synced := pre.syncWrites st pre
  let shown := Block.performIf (pre.dsvc st.dispEv) (pre.dispSvcWrites synced) synced
  let counted := Block.performIf (pre.csvc st.cntEv) (pre.cntSvcWrites shown) shown
  Block.performIf st.ctrlWe (counted.ctrlWrites st) counted

/-- The state after a cycle of the block: only its registers change. -/
def State.withBlock (s : State) (b : Block s.cfg) : State := { s with blk := b }

/-- The state after a cycle without RST whose strobes are `st`. -/
def State.cycle (s : State) (st : Strobes) : State := s.withBlock (s.blk.clockEdge st)

end Sys2Proof.Machine
end

