-- ==== Sys2Proof/Machine/Counter.lean ====
section
/-! DEFINITION. The counter engine's two operations (42_counter_engine.md R120, R122). -/

namespace Sys2Proof.Machine

/-- CNT_SVC by itself, with the INC it performs at the trigger (42_counter_engine.md R120, R121, log 6). -/
def execCntSvc (s : State) : Host.Outcome State Fault Refusal :=
  .next (s.withBlock (s.blk.cntSvcWrites s.blk))

/-- INC by itself (42_counter_engine.md R122). -/
def execInc (s : State) : Host.Outcome State Fault Refusal :=
  .next (s.withBlock (s.blk.incWrites s.blk))

end Sys2Proof.Machine
end

