-- ==== Sys2Proof/Machine/Display.lean ====
section
/-! DEFINITION. The display multiplexer's operation (41_display_multiplexer.md R102). -/

namespace Sys2Proof.Machine

/-- DISP_SVC by itself (41_display_multiplexer.md R102). The pending flag and the strobe of the cycle that performs it
are the synchronizer's writes, not this operation's (log 6). -/
def execDispSvc (s : State) : Host.Outcome State Fault Refusal :=
  .next (s.withBlock (s.blk.dispSvcWrites s.blk))

end Sys2Proof.Machine
end

