-- ==== Sys2Proof/Machine/Synchronizer.lean ====
section
/-! DEFINITION. The five operations of format IN (43_interrupt_synchronizer.md R144 to R148): each is the clock cycle of
the input word it stands for (R149). -/

namespace Sys2Proof.Machine

/-- RST (43_interrupt_synchronizer.md R144, 70_reset_and_hazards.md R191): `S_RESET`, whatever the other bits are. -/
def execRst (_ignored : BitVec 6) (s : State) : Host.Outcome State Fault Refusal :=
  .next (s.withBlock (resetBlock s.cfg))

/-- CTRL_WR (43_interrupt_synchronizer.md R145), with the events of its word; the old `CTRL` gates them (R141). -/
def execCtrlWr (wdata : CtrlWord) (dispEv cntEv : Bool) (s : State) : Host.Outcome State Fault Refusal :=
  .next (s.cycle { ctrlWe := true, wdata := wdata, dispEv := dispEv, cntEv := cntEv })

/-- DISP_EV (43_interrupt_synchronizer.md R146). -/
def execDispEv (wdata : CtrlWord) (ctrlWe cntEv : Bool) (s : State) : Host.Outcome State Fault Refusal :=
  .next (s.cycle { ctrlWe := ctrlWe, wdata := wdata, dispEv := true, cntEv := cntEv })

/-- CNT_EV (43_interrupt_synchronizer.md R147). -/
def execCntEv (wdata : CtrlWord) (ctrlWe dispEv : Bool) (s : State) : Host.Outcome State Fault Refusal :=
  .next (s.cycle { ctrlWe := ctrlWe, wdata := wdata, dispEv := dispEv, cntEv := true })

/-- IDLE (43_interrupt_synchronizer.md R148): no strobe, and `IN[5:3]` ignored; a pending request is still serviced. -/
def execIdle (wdata : CtrlWord) (s : State) : Host.Outcome State Fault Refusal :=
  .next (s.cycle { ctrlWe := false, wdata := wdata, dispEv := false, cntEv := false })

end Sys2Proof.Machine
end

