-- ==== Sys2Proof/Machine/Dispatch.lean ====
section
/-! DEFINITION. The meaning of every operation. -/

namespace Sys2Proof.Machine

def exec (i : Instr) (s : State) : Host.Outcome State Fault Refusal :=
  match i with
  -- format IN: a clock cycle with that input word
  | .rst ignored => Sys2Proof.Machine.execRst ignored s
  | .ctrlWr wdata dispEv cntEv => Sys2Proof.Machine.execCtrlWr wdata dispEv cntEv s
  | .dispEv wdata ctrlWe cntEv => Sys2Proof.Machine.execDispEv wdata ctrlWe cntEv s
  | .cntEv wdata ctrlWe dispEv => Sys2Proof.Machine.execCntEv wdata ctrlWe dispEv s
  | .idle wdata => Sys2Proof.Machine.execIdle wdata s
  -- format SV: an operation a cycle performs inside
  | .dispSvc => Sys2Proof.Machine.execDispSvc s
  | .cntSvc => Sys2Proof.Machine.execCntSvc s
  | .inc => Sys2Proof.Machine.execInc s

end Sys2Proof.Machine
end

