-- ==== Sys2Proof/Machine/Fetch.lean ====
section
/-! DEFINITION. Where a cycle's input word comes from, and how a given word is placed there. The block fetches nothing
(10_state.md R33): the environment drives a word each cycle (30_encoding.md R70). -/

namespace Sys2Proof.Machine

/-- The input word of this cycle, and the state with it consumed. With no word placed the environment may drive any
(93 I10): the next free word (log 4). -/
def State.sample (s : State) : InWord × State :=
  match s.inputs with
  | w :: rest => (w, { s with inputs := rest })
  | [] => (Config.freeInput s.freeInputs, { s with freeInputs := s.freeInputs + 1 })

/-- `s` with `w` as the input word of the next cycle, in place of the one placed there. -/
def State.withInput (s : State) (w : InWord) : State := { s with inputs := w :: s.inputs.tail }

/-- `TRIGGER - 1` is a value of `Y`. -/
theorem accLast_lt (cfg : Config) : cfg.trigger - 1 < cfg.trigger := by
  have := cfg.trigger_pos
  omega

/-- The block with what makes the next IDLE cycle's service vector `sv`: all enables, the pending flags of the sources
`sv` serves, and `Y` at the trigger for INC and at 0 for a CNT_SVC without it (30_encoding.md R74,
43_interrupt_synchronizer.md R141). -/
def Block.requesting {cfg : Config} (b : Block cfg) (sv : SvWord) : Block cfg :=
  { b with
    ctrl := 0b111#3
    pendD := sv.getLsbD 0
    pendC := sv.getLsbD 1
    y := if sv.getLsbD 2 then ⟨cfg.trigger - 1, accLast_lt cfg⟩
         else if sv.getLsbD 1 then accZero cfg else b.y }

/-- `s` with what makes the next cycle perform the operations of the service vector `sv` (log 7). -/
def State.withService (s : State) (sv : SvWord) : State :=
  (s.withBlock (s.blk.requesting sv)).withInput 0x00#7

/-- Place an opcode-table word: an SV word of 3 bits as the next cycle's service vector, any other as its input word. -/
def State.placeWord (s : State) (nbits w : Nat) : State :=
  if nbits = 3 then s.withService (BitVec.ofNat 3 w) else s.withInput (BitVec.ofNat 7 w)

end Sys2Proof.Machine
end

