-- ==== Sys2Proof/Machine/Step.lean ====
section
/-! DEFINITION. One rising clock edge (00_scope.md R7, 43_interrupt_synchronizer.md R149). -/

namespace Sys2Proof.Machine

/-- Sample the cycle's input word, decode it, and perform the cycle it stands for. -/
def step (s : State) : Host.Outcome State Fault Refusal :=
  exec (decodeIn s.sample.1) s.sample.2

/-- `s` with an opcode-table word placed where `step` takes its next one (log 3, log 7). -/
def State.withFetchWord (s : State) (nbits w : Nat) : State := s.placeWord nbits w

end Sys2Proof.Machine
end

