-- ==== Sys2Proof/Machine/Stimulus.lean ====
section
/-! DEFINITION. The stimulus syntax and the pseudo-operations (30_encoding.md R78, R79), as lists of input words. -/

namespace Sys2Proof.Machine

/-- `CTRL c,d,g`: `0x04 + 32c + 16d + 8g` (30_encoding.md R78). -/
def ctrlLine (c d g : Bool) : InWord :=
  packIn (BitVec.ofBool c ++ BitVec.ofBool d ++ BitVec.ofBool g) true false false

/-- `RST`, `DEV`, `CEV`, `DEV+CEV` and `IDLE` (30_encoding.md R78). -/
def rstLine : InWord := 0x40#7
def devLine : InWord := 0x02#7
def cevLine : InWord := 0x01#7
def devCevLine : InWord := 0x03#7
def idleLine : InWord := 0x00#7

/-- `<line> + <line>`: the OR of the words (30_encoding.md R78). -/
def joinLines (a b : InWord) : InWord := a ||| b

/-- `n * <line>`: the same word on `n` cycles (30_encoding.md R78). -/
def repeatLine (n : Nat) (w : InWord) : List InWord := List.replicate n w

/-- `ENABLE_ALL`, `DISABLE_ALL` and `MASK_DISPLAY` (30_encoding.md R79). -/
def enableAll : InWord := ctrlLine true true true
def disableAll : InWord := ctrlLine false false false
def maskDisplay : InWord := ctrlLine true false true

/-- `WAIT n`, `FRAME` and `SECOND` (30_encoding.md R79). -/
def waitCycles (n : Nat) : List InWord := repeatLine n idleLine
def frame : List InWord := repeatLine 4 devLine
def second (cfg : Config) : List InWord := repeatLine cfg.trigger cevLine

end Sys2Proof.Machine
end

