-- ==== Sys2Proof/Safety.lean ====
section
/-! DEFINITION. What claims about the block are made of: the two halves of a cycle as relations read off the spec's
pseudocode, the invariant of the registers, iteration, and the external timers' contract. -/

namespace Sys2Proof.Machine

variable {cfg : Config}

/-- The display half of a cycle without RST, with the event input `ev` (43_interrupt_synchronizer.md R140 to R143,
R149; 41_display_multiplexer.md R102). -/
def DisplaySourceCycle (ev : Bool) (pre post : Block cfg) : Prop :=
  let req := pre.pendD || ev
  let svc := req && pre.ctrl.getLsbD 0 && pre.ctrl.getLsbD 1
  post.pendD = (req && !svc) ∧ post.rldD = svc ∧
    (svc = true →
      post.selOut = 0b1111#4 ^^^ (1#4 <<< pre.x.val) ∧
      post.segOut = cfg.glyph.get (pre.d.read pre.x) ∧
      post.x.val = (pre.x.val + 1) % 4) ∧
    (svc = false → post.selOut = pre.selOut ∧ post.segOut = pre.segOut ∧ post.x = pre.x)

/-- The count half of a cycle without RST, with the event input `ev` (43_interrupt_synchronizer.md R140 to R143, R149;
42_counter_engine.md R120, R123: the value of the digits determines them). -/
def CountSourceCycle (ev : Bool) (pre post : Block cfg) : Prop :=
  let req := pre.pendC || ev
  let svc := req && pre.ctrl.getLsbD 0 && pre.ctrl.getLsbD 2
  post.pendC = (req && !svc) ∧ post.rldC = svc ∧
    (svc = true → pre.y.val + 1 = cfg.trigger →
      post.y.val = 0 ∧ post.d.value = (pre.d.value + 1) % 10000) ∧
    (svc = true → pre.y.val + 1 ≠ cfg.trigger → post.y.val = pre.y.val + 1 ∧ post.d = pre.d) ∧
    (svc = false → post.y = pre.y ∧ post.d = pre.d)

/-- The display registers fit together. Either no position was shown since reset, and then the cursor is at 0, the
segments are blank and no reload is raised; or the row of the position before the cursor is selected, with some digit's
glyph (10_state.md R36, R38; 41_display_multiplexer.md R104). -/
def DisplayCoherent (b : Block cfg) : Prop :=
  (b.selOut = 0b1111#4 ∧ b.x = 0 ∧ b.segOut = cfg.segBlank ∧ b.rldD = false) ∨
    (b.selOut = selRom (b.x - 1) ∧ ∃ g : Digit, b.segOut = cfg.glyph.get g)

/-- A source that was just serviced has no request left pending (43_interrupt_synchronizer.md R142, R143). -/
def SourcesCoherent (b : Block cfg) : Prop :=
  ¬(b.pendD = true ∧ b.rldD = true) ∧ ¬(b.pendC = true ∧ b.rldC = true)

/-- The invariant of the block's registers. -/
def Block.Coherent (b : Block cfg) : Prop := DisplayCoherent b ∧ SourcesCoherent b

/-- `TRIGGER * V(D) + Y`: the count-timer services the block has counted, modulo `10000 * TRIGGER`
(42_counter_engine.md R127). -/
def Block.ticks (b : Block cfg) : Nat := cfg.trigger * b.d.value + b.y.val

/-- `k` times the same operation. -/
def repeatExec (i : Instr) : Nat → State → Host.Outcome State Fault Refusal
  | 0, s => .next s
  | k + 1, s =>
    match exec i s with
    | .next t => repeatExec i k t
    | .fault r => .fault r
    | .refused r => .refused r

/-- The machine run on a list of input words, one a cycle. -/
def runWords : List InWord → State → Host.Outcome State Fault Refusal
  | [], s => .next s
  | w :: ws, s =>
    match step { s with inputs := w :: ws } with
    | .next t => runWords ws t
    | .fault r => .fault r
    | .refused r => .refused r

/-! The contract the block assumes of its two timers (60_exceptions.md R179). The block does not check it: it is a
premise a claim may take, and must name (93_implementation_defined.md I10, log 10). -/

/-- Which timers may send an event: those that were started or reloaded and have sent none since. -/
structure Arming where
  disp : Bool
  cnt : Bool
deriving DecidableEq, Repr

/-- May the word's events come? Only from a timer that is armed or receives its reload strobe in this cycle (R179,
items 2 and 3). -/
def Arming.Permits (a : Arming) (b : Block cfg) (w : InWord) : Prop :=
  (w.getLsbD 1 = true → (a.disp || b.rldD) = true) ∧ (w.getLsbD 0 = true → (a.cnt || b.rldC) = true)

/-- The timers after the cycle: an event disarms, a reload strobe arms (R179, items 2 and 3). -/
def Arming.after (a : Arming) (b : Block cfg) (w : InWord) : Arming where
  disp := (a.disp || b.rldD) && !w.getLsbD 1
  cnt := (a.cnt || b.rldC) && !w.getLsbD 0

/-- A timer whose request is pending is neither armed nor being reloaded. -/
def Arming.Coherent (a : Arming) (b : Block cfg) : Prop :=
  (b.pendD = true → a.disp = false ∧ b.rldD = false) ∧ (b.pendC = true → a.cnt = false ∧ b.rldC = false)

/-- No event of the word meets a pending request of its source (43_interrupt_synchronizer.md R151). -/
def NoMerge (b : Block cfg) (w : InWord) : Prop :=
  ¬(b.pendD = true ∧ w.getLsbD 1 = true) ∧ ¬(b.pendC = true ∧ w.getLsbD 0 = true)

/-- The words, driven one a cycle from `s`, keep the timer contract. -/
def KeepsContract : List InWord → Arming → State → Prop
  | [], _, _ => True
  | w :: ws, a, s =>
    a.Permits s.blk w ∧
      ∀ t, step { s with inputs := w :: ws } = .next t → KeepsContract ws (a.after s.blk w) t

/-- No cycle of the run merges two events of a source. -/
def NeverMerges : List InWord → State → Prop
  | [], _ => True
  | w :: ws, s =>
    NoMerge s.blk w ∧ ∀ t, step { s with inputs := w :: ws } = .next t → NeverMerges ws t

end Sys2Proof.Machine
end

