-- ==== Sys2Proof/Certificates/Slice0/Obligations.lean ====
section
/-! DEFINITION. The statements about the model. Where a statement gives an input word, it is the head of `inputs`, the
word of the next cycle. -/

open Sys2Proof Sys2Proof.Machine

/-! Encoding. -/

/-- Decoding the word of a well-formed operation gives it back, with every operand (30_encoding.md R72, R75; the choice
of one spelling for a word with several strobes is the model's, log 5, and of one operation for a service vector, log 6). -/
def Obligations.DecodeOfEncode : Prop :=
  ∀ i : Instr, i.WellFormed = true → decode (encode i) = .ok i

/-- The readings of an input word are exactly the operations whose word it is, well-formed or not (30_encoding.md R72,
R75; the operands are the model's, log 5). -/
def Obligations.ReadingsAreTheOperationsOfTheWord : Prop :=
  ∀ (w : InWord) (i : Instr), i ∈ readingsIn w ↔ encode i = .inWord w

/-- 30_encoding.md R76: every input word is legal and none traps; `IN[5:0]` of an RST word and `IN[5:3]` without
`CTRL_WE` are don't-care. (That a word has one well-formed spelling as an operation is the model's choice, log 5.) -/
def Obligations.EveryInputWordIsLegal : Prop :=
  ∀ w : InWord,
    (∃ i, decode (.inWord w) = .ok i ∧ i.isInput = true ∧ i.WellFormed = true ∧ encode i = .inWord w ∧
      ∀ s, ∃ t, exec i s = .next t) ∧
    (∀ (v : InWord) (s : State), w.getLsbD 6 = true → v.getLsbD 6 = true →
      exec (decodeIn w) s = exec (decodeIn v) s) ∧
    (∀ (v : InWord) (s : State), w.getLsbD 6 = v.getLsbD 6 → w.getLsbD 2 = false → v.getLsbD 2 = false →
      w.getLsbD 1 = v.getLsbD 1 → w.getLsbD 0 = v.getLsbD 0 → exec (decodeIn w) s = exec (decodeIn v) s)

/-- Words of 95_test_vectors.md section 2.1 and of 30_encoding.md R75 decode to what they stand for. Where a word matches
several rows the answer is the model's choice among them: 0x03 is DISP_EV and CNT_EV in the spec, and 0x3F CTRL_WR,
DISP_EV and CNT_EV, each answered as its first row with the other strobes as operands (log 5); SV 0b110 is CNT_SVC and
INC, answered as INC (log 6). -/
def Obligations.SpecWordsDecode : Prop :=
  decode (.inWord 0x00#7) = .ok (.idle 0b000#3) ∧
  decode (.inWord 0x38#7) = .ok (.idle 0b111#3) ∧
  decode (.inWord 0x01#7) = .ok (.cntEv 0b000#3 false false) ∧
  decode (.inWord 0x02#7) = .ok (.dispEv 0b000#3 false false) ∧
  decode (.inWord 0x03#7) = .ok (.dispEv 0b000#3 false true) ∧
  decode (.inWord 0x04#7) = .ok (.ctrlWr 0b000#3 false false) ∧
  decode (.inWord 0x2C#7) = .ok (.ctrlWr 0b101#3 false false) ∧
  decode (.inWord 0x3F#7) = .ok (.ctrlWr 0b111#3 true true) ∧
  decode (.inWord 0x7F#7) = .ok (.rst 0b111111#6) ∧
  decode (.svWord 0b001#3) = .ok .dispSvc ∧
  decode (.svWord 0b010#3) = .ok .cntSvc ∧
  decode (.svWord 0b110#3) = .ok .inc ∧
  decode (.svWord 0b100#3) = .error .incWithoutCntSvc

/-- 30_encoding.md R72, R75: the rows a word matches are those of its strobes, RST matches alone, IDLE has no strobe. And
whichever row a word is read in, the cycle is the same: this last clause rests on the model's choice that an operation of
format IN stands for its whole word (log 5). -/
def Obligations.ReadingsOfAWordAgree : Prop :=
  ∀ w : InWord,
    ((∃ l, .rst l ∈ readingsIn w) ↔ w.getLsbD 6 = true) ∧
    ((∃ c d e, .ctrlWr c d e ∈ readingsIn w) ↔ w.getLsbD 6 = false ∧ w.getLsbD 2 = true) ∧
    ((∃ c d e, .dispEv c d e ∈ readingsIn w) ↔ w.getLsbD 6 = false ∧ w.getLsbD 1 = true) ∧
    ((∃ c d e, .cntEv c d e ∈ readingsIn w) ↔ w.getLsbD 6 = false ∧ w.getLsbD 0 = true) ∧
    ((∃ c, .idle c ∈ readingsIn w) ↔
      w.getLsbD 6 = false ∧ w.getLsbD 2 = false ∧ w.getLsbD 1 = false ∧ w.getLsbD 0 = false) ∧
    ∀ i ∈ readingsIn w, ∀ s, exec i s = exec (decodeIn w) s

/-- 30_encoding.md R77: a cycle's service vector is never INC without CNT_SVC, and the six others all occur. -/
def Obligations.ImpossibleServiceVectorsNeverOccur : Prop :=
  (∀ (cfg : Config) (b : Block cfg) (w : InWord),
    b.serviceVectorOf w ≠ 0b100#3 ∧ b.serviceVectorOf w ≠ 0b101#3) ∧
  ∀ v : SvWord, v ≠ 0b100#3 → v ≠ 0b101#3 →
    ∃ (b : Block referenceConfig) (w : InWord), b.serviceVectorOf w = v

/-- 30_encoding.md R78, R79: the stimulus lines are these words, lines join by OR, and the pseudo-operations expand to
these lists of words. (The last clause, that a word of several rows decodes to its CTRL_WR row, is the model's choice,
log 5.) -/
def Obligations.StimulusLinesAreTheseWords : Prop :=
  (rstLine = 0x40#7 ∧ devLine = 0x02#7 ∧ cevLine = 0x01#7 ∧ devCevLine = 0x03#7 ∧ idleLine = 0x00#7) ∧
  (∀ c d g : Bool, (ctrlLine c d g).toNat = 4 + 32 * c.toNat + 16 * d.toNat + 8 * g.toNat) ∧
  (∀ a b : InWord, joinLines a b = a ||| b) ∧ joinLines devLine cevLine = devCevLine ∧
  (enableAll = 0x3C#7 ∧ disableAll = 0x04#7 ∧ maskDisplay = 0x2C#7) ∧
  (∀ (n : Nat) (w : InWord), (repeatLine n w).length = n ∧ ∀ v ∈ repeatLine n w, v = w) ∧
  ((∀ n : Nat, waitCycles n = List.replicate n 0x00#7) ∧
    frame = [0x02#7, 0x02#7, 0x02#7, 0x02#7] ∧
    ∀ cfg : Config, second cfg = List.replicate cfg.trigger 0x01#7) ∧
  ∀ c d g : Bool, decodeIn (joinLines (ctrlLine c d g) devCevLine) =
    .ctrlWr (BitVec.ofBool c ++ BitVec.ofBool d ++ BitVec.ofBool g) true true

/-! The step. -/

/-- A step samples the cycle's input word, and is `exec` of the operation it decodes to at the state with that word
consumed. With no word placed, the word is the free one, whatever it is (log 3, log 4). -/
def Obligations.StepRunsDecodedInstruction : Prop :=
  (∀ (s : State) (w : InWord) (rest : List InWord), ∃ i, decode (.inWord w) = .ok i ∧
    step { s with inputs := w :: rest } = exec i { s with inputs := rest }) ∧
  ∀ s : State, ∃ i, decode (.inWord (Config.freeInput s.freeInputs)) = .ok i ∧
    step { s with inputs := [] } = exec i { s with inputs := [], freeInputs := s.freeInputs + 1 }

/-- No state and no input word stops the machine (60_exceptions.md R170, R178): every step answers a next state, and
takes one word from the environment. -/
def Obligations.StepAlwaysAnswersNextState : Prop :=
  ∀ s : State, ∃ t, step s = .next t ∧ t.inputs = s.inputs.tail ∧
    t.freeInputs = s.freeInputs + (if s.inputs = [] then 1 else 0)

/-- 43_interrupt_synchronizer.md R149: the step function, whole. Every right-hand side reads the pre-edge block. -/
def Obligations.StepIsTheCycleFunction : Prop :=
  ∀ (s : State) (w : InWord) (rest : List InWord), ∃ b : Block s.cfg,
    step { s with inputs := w :: rest } = .next { s with inputs := rest, blk := b } ∧
    (w.getLsbD 6 = true → b = resetBlock s.cfg) ∧
    (w.getLsbD 6 = false →
      DisplaySourceCycle (w.getLsbD 1) s.blk b ∧ CountSourceCycle (w.getLsbD 0) s.blk b ∧
      b.ctrl = if w.getLsbD 2 then w.extractLsb' 3 3 else s.blk.ctrl)

/-! RST and reset. -/

/-- 43_interrupt_synchronizer.md R144: RST from any state gives `S_RESET`, whatever its ignored bits are, and touches
neither the parameters nor the environment's words; its pattern; and no operation is performed inside its cycle. -/
def Obligations.ResetFromAnyState : Prop :=
  (∀ (ignored : BitVec 6) (s : State), exec (.rst ignored) s = .next { s with blk :=
    { d := ⟨0, 0, 0, 0⟩, x := 0, y := ⟨0, s.cfg.trigger_pos⟩, pendD := false, pendC := false, ctrl := 0b000#3,
      selOut := 0b1111#4, segOut := s.cfg.segBlank, rldD := false, rldC := false } }) ∧
  (∀ w : InWord, (∃ l, .rst l ∈ readingsIn w) ↔ w &&& 0x40#7 = 0x40#7) ∧
  ∀ (s : State) (w : InWord), w &&& 0x40#7 = 0x40#7 → s.blk.serviceVectorOf w = 0b000#3

/-- 70_reset_and_hazards.md R191: RST dominates its cycle. A word with bit 6 set gives `S_RESET` whatever its other bits
are, its service vector is `0b000`, its events are not latched and its control write is discarded. -/
def Obligations.ResetWordDominatesItsCycle : Prop :=
  ∀ (s : State) (w : InWord) (rest : List InWord), w.getLsbD 6 = true →
    step { s with inputs := w :: rest } = .next { s with inputs := rest, blk := resetBlock s.cfg } ∧
    s.blk.serviceVectorOf w = 0b000#3 ∧
    (resetBlock s.cfg).pendD = false ∧ (resetBlock s.cfg).pendC = false ∧ (resetBlock s.cfg).ctrl = 0b000#3

/-- 10_state.md R37: after reset, and after RST from any state, the digits are "0000". -/
def Obligations.ResetClearsTheDigits : Prop :=
  (∀ (ignored : BitVec 6) (s : State), ∃ t, exec (.rst ignored) s = .next t ∧
    (∀ i : Pos, t.blk.d.read i = 0) ∧ t.blk.d.value = 0) ∧
  ∀ i : Pos, State.reset.blk.d.read i = 0

/-- 10_state.md R38: the other registers' reset values, and the initial mask: no service whatever the events are. -/
def Obligations.ResetValuesOfTheOtherRegisters : Prop :=
  (∀ cfg : Config,
    (resetBlock cfg).x = 0 ∧ (resetBlock cfg).y.val = 0 ∧ (resetBlock cfg).pendD = false ∧
    (resetBlock cfg).pendC = false ∧ (resetBlock cfg).ctrl = 0b000#3 ∧ (resetBlock cfg).selOut = 0b1111#4 ∧
    (resetBlock cfg).segOut = cfg.segBlank ∧ (resetBlock cfg).rldD = false ∧ (resetBlock cfg).rldC = false ∧
    ∀ w : InWord, (resetBlock cfg).serviceVectorOf w = 0b000#3) ∧
  State.reset.blk = resetBlock State.reset.cfg ∧ referenceConfig.segBlank = 0x00#8

/-! The operations of format IN. Each statement says that the operation completes in every state, gives the registers
of both halves of the cycle, and that nothing else of the state changes. -/

/-- 43_interrupt_synchronizer.md R145: CTRL_WR copies its field into `CTRL`, bit for bit; the events of its word are
gated by the old `CTRL`, and pending flags are not cleared by the write. -/
def Obligations.CtrlWriteCycleResult : Prop :=
  (∀ (wdata : CtrlWord) (dispEv cntEv : Bool) (s : State), ∃ b : Block s.cfg,
    exec (.ctrlWr wdata dispEv cntEv) s = .next { s with blk := b } ∧
    b.ctrl = wdata ∧ b.gie = wdata.getLsbD 0 ∧ b.den = wdata.getLsbD 1 ∧ b.cen = wdata.getLsbD 2 ∧
    DisplaySourceCycle dispEv s.blk b ∧ CountSourceCycle cntEv s.blk b) ∧
  ∀ w : InWord, (∃ c d e, .ctrlWr c d e ∈ readingsIn w) ↔ w &&& 0x44#7 = 0x04#7

/-- 43_interrupt_synchronizer.md R146: DISP_EV is a display request in its cycle; with RST in the same word
the event is lost. -/
def Obligations.DisplayEventCycleResult : Prop :=
  (∀ (wdata : CtrlWord) (ctrlWe cntEv : Bool) (s : State), ∃ b : Block s.cfg,
    exec (.dispEv wdata ctrlWe cntEv) s = .next { s with blk := b } ∧
    DisplaySourceCycle true s.blk b ∧ CountSourceCycle cntEv s.blk b ∧
    b.ctrl = (if ctrlWe then wdata else s.blk.ctrl) ∧
    b.pendD = !(s.blk.gie && s.blk.den) ∧ b.rldD = (s.blk.gie && s.blk.den)) ∧
  (∀ (s : State) (w : InWord) (rest : List InWord), ∃ t, step { s with inputs := (w ||| 0b1000010#7) :: rest } = .next t ∧
    t.blk.pendD = false) ∧
  ∀ w : InWord, (∃ c d e, .dispEv c d e ∈ readingsIn w) ↔ w &&& 0x42#7 = 0x02#7

/-- 43_interrupt_synchronizer.md R147: CNT_EV is a count request in its cycle; with RST in the same word the
event is lost. -/
def Obligations.CountEventCycleResult : Prop :=
  (∀ (wdata : CtrlWord) (ctrlWe dispEv : Bool) (s : State), ∃ b : Block s.cfg,
    exec (.cntEv wdata ctrlWe dispEv) s = .next { s with blk := b } ∧
    DisplaySourceCycle dispEv s.blk b ∧ CountSourceCycle true s.blk b ∧
    b.ctrl = (if ctrlWe then wdata else s.blk.ctrl) ∧
    b.pendC = !(s.blk.gie && s.blk.cen) ∧ b.rldC = (s.blk.gie && s.blk.cen)) ∧
  (∀ (s : State) (w : InWord) (rest : List InWord), ∃ t, step { s with inputs := (w ||| 0b1000001#7) :: rest } = .next t ∧
    t.blk.pendC = false) ∧
  ∀ w : InWord, (∃ c d e, .cntEv c d e ∈ readingsIn w) ↔ w &&& 0x41#7 = 0x01#7

/-- 43_interrupt_synchronizer.md R148: IDLE is the cycle without events and without a control write; pending requests
are still serviced; with nothing pending it changes only the reload strobes. -/
def Obligations.IdleCycleResult : Prop :=
  (∀ (wdata : CtrlWord) (s : State), ∃ b : Block s.cfg,
    exec (.idle wdata) s = .next { s with blk := b } ∧
    DisplaySourceCycle false s.blk b ∧ CountSourceCycle false s.blk b ∧ b.ctrl = s.blk.ctrl ∧
    (s.blk.pendD = false → s.blk.pendC = false → b = { s.blk with rldD := false, rldC := false })) ∧
  ∀ w : InWord, (∃ c, .idle c ∈ readingsIn w) ↔ w &&& 0x47#7 = 0x00#7

/-! The operations of format SV. -/

/-- 41_display_multiplexer.md R102: DISP_SVC drives the row and the glyph of the position at the cursor, advances the
cursor modulo 4, and writes nothing else. It is performed in a cycle exactly when a display request meets
`GIE = DEN = 1`. -/
def Obligations.DisplayServiceResult : Prop :=
  (∀ s : State, ∃ b : Block s.cfg, exec .dispSvc s = .next { s with blk := b } ∧
    b = { s.blk with selOut := 0b1111#4 ^^^ (1#4 <<< s.blk.x.val)
                     segOut := s.cfg.glyph.get (s.blk.d.read s.blk.x)
                     x := b.x } ∧
    b.x.val = (s.blk.x.val + 1) % 4) ∧
  ∀ (s : State) (w : InWord), (s.blk.serviceVectorOf w).getLsbD 0 =
    (!w.getLsbD 6 && (s.blk.pendD || w.getLsbD 1) && s.blk.ctrl.getLsbD 0 && s.blk.ctrl.getLsbD 1)

/-- 42_counter_engine.md R120: CNT_SVC counts; at the trigger it zeroes `Y` and performs INC in the same cycle; it
writes nothing else. It is performed in a cycle exactly when a count request meets `GIE = CEN = 1`. -/
def Obligations.CountServiceResult : Prop :=
  (∀ s : State, ∃ b : Block s.cfg, exec .cntSvc s = .next { s with blk := b } ∧
    b = { s.blk with y := b.y, d := b.d } ∧
    (s.blk.y.val + 1 = s.cfg.trigger → b.y.val = 0 ∧
      ∃ u, exec .inc s = .next u ∧ b.d = u.blk.d) ∧
    (s.blk.y.val + 1 ≠ s.cfg.trigger → b.y.val = s.blk.y.val + 1 ∧ b.d = s.blk.d)) ∧
  ∀ (s : State) (w : InWord), (s.blk.serviceVectorOf w).getLsbD 1 =
    (!w.getLsbD 6 && (s.blk.pendC || w.getLsbD 0) && s.blk.ctrl.getLsbD 0 && s.blk.ctrl.getLsbD 2)

/-- 42_counter_engine.md R122: the carry chain, ones to thousands, with the carry into the ones 1. Nothing but the
digits changes; the last carry is 1 only for "9999" and goes nowhere. INC is performed only inside a CNT_SVC. -/
def Obligations.IncrementResult : Prop :=
  (∀ s : State, ∃ (d' : DigitFile) (c : Pos → Nat) (last : Nat),
    exec .inc s = .next { s with blk := { s.blk with d := d' } } ∧ c 3 = 1 ∧
    (∀ i : Pos,
      let carryOut := if i = 0 then last else c (i - 1)
      if (s.blk.d.read i).val + c i = 10 then (d'.read i).val = 0 ∧ carryOut = 1
      else (d'.read i).val = (s.blk.d.read i).val + c i ∧ carryOut = 0) ∧
    (last = 1 ↔ s.blk.d = ⟨9, 9, 9, 9⟩)) ∧
  (∀ w : SvWord, (∃ l, readingsSv w = .ok l ∧ .inc ∈ l) ↔ w &&& 0b110#3 = 0b110#3) ∧
  ∀ (s : State) (w : InWord), (s.blk.serviceVectorOf w).getLsbD 2 = true →
    (s.blk.serviceVectorOf w).getLsbD 1 = true ∧ s.blk.y.val + 1 = s.cfg.trigger

/-- 42_counter_engine.md R125: each digit takes a carry exactly when every less significant digit is 9, and is the sum
modulo 10. -/
def Obligations.IncrementPerDigitLaw : Prop :=
  ∀ s : State, ∃ t, exec .inc s = .next t ∧ ∀ i : Pos, (t.blk.d.read i).val =
    ((s.blk.d.read i).val + if ∀ j : Pos, i < j → (s.blk.d.read j).val = 9 then 1 else 0) % 10

/-- 42_counter_engine.md R123: the digit file is a modulo-10000 counter. -/
def Obligations.IncrementAddsOneModulo10000 : Prop :=
  ∀ s : State, ∃ t, exec .inc s = .next t ∧ t.blk.d.value = (s.blk.d.value + 1) % 10000 ∧ t.blk.d.value < 10000

/-! Counting. -/

/-- 42_counter_engine.md R121: the trigger condition, and from `Y = 0` exactly `TRIGGER` services perform exactly one
INC and bring `Y` back to 0. -/
def Obligations.TriggerServicesIncrementOnce : Prop :=
  (∀ (s : State) (dispEv cntEv : Bool), (s.blk.serviceVector dispEv cntEv).getLsbD 2 =
    ((s.blk.serviceVector dispEv cntEv).getLsbD 1 && decide (s.blk.y.val + 1 = s.cfg.trigger))) ∧
  ∀ s : State, s.blk.y.val = 0 →
    (∀ k, (h : k < s.cfg.trigger) → repeatExec .cntSvc k s = .next { s with blk := { s.blk with y := ⟨k, h⟩ } }) ∧
    repeatExec .cntSvc s.cfg.trigger s = exec .inc s

/-- 42_counter_engine.md R127: with `GIE = CEN = 1`, `k` cycles of count events add `k` to the ticks counted, modulo
`10000 * TRIGGER`; so from `"0000"` and `Y = 0` the counter is `floor(k / TRIGGER) mod 10000`. -/
def Obligations.CounterCadence : Prop :=
  ∀ (k : Nat) (wdata : CtrlWord) (dispEv : Bool) (s : State), s.blk.gie = true → s.blk.cen = true →
    ∃ b : Block s.cfg, repeatExec (.cntEv wdata false dispEv) k s = .next { s with blk := b } ∧
      b.ticks = (s.blk.ticks + k) % (10000 * s.cfg.trigger) ∧
      (s.blk.d.value = 0 → s.blk.y.val = 0 →
        b.d.value = k / s.cfg.trigger % 10000 ∧ b.y.val = k % s.cfg.trigger)

/-! The display. -/

/-- 41_display_multiplexer.md R103: the cursor has period 4, and the `k`-th service from the cursor position `x` shows
position `x + k - 1` modulo 4. -/
def Obligations.DisplayCursorPeriodicity : Prop :=
  ∀ (k : Nat) (s : State), ∃ b : Block s.cfg, repeatExec .dispSvc k s = .next { s with blk := b } ∧
    b.x.val = (s.blk.x.val + k) % 4 ∧ (k = 4 → b.x = s.blk.x) ∧ b.d = s.blk.d ∧
    ∀ p : Pos, 0 < k → p.val = (s.blk.x.val + (k - 1)) % 4 →
      b.selOut = selRom p ∧ b.segOut = s.cfg.glyph.get (s.blk.d.read p)

/-- 41_display_multiplexer.md R104: after a DISP_SVC exactly one select line is low, that of the position the cursor
held before. -/
def Obligations.ExactlyOneLineSelected : Prop :=
  ∀ s : State, ∃ t, exec .dispSvc s = .next t ∧
    ∀ i : Pos, t.blk.selOut.getLsbD i.val = false ↔ i = s.blk.x

/-- 41_display_multiplexer.md R100: row `i` of the select ROM has bit `i` equal to 0 and the other three equal to 1. -/
def Obligations.SelectRomRows : Prop :=
  ∀ i : Pos, selRom i = 0b1111#4 ^^^ (1#4 <<< i.val) ∧
    ∀ j : Pos, (selRom i).getLsbD j.val = !decide (j = i)

/-- 41_display_multiplexer.md R101: the reference glyphs light the segments listed for each digit; the active-low table is the complement; the decimal point is
off. The reset state carries the active-high one (the reference value of 00_scope.md R5, log 1). -/
def Obligations.ReferenceGlyphs : Prop :=
  glyphRefAH.toList = [0x3F#8, 0x06#8, 0x5B#8, 0x4F#8, 0x66#8, 0x6D#8, 0x7D#8, 0x07#8, 0x7F#8, 0x6F#8] ∧
  (∀ (g : Digit) (seg : Segment), (glyphRefAH.get g).getLsbD (segmentBit seg) = decide (seg ∈ segmentsLit g)) ∧
  (∀ g : Digit, glyphRefAL.get g = ~~~(glyphRefAH.get g) ∧ (glyphRefAH.get g).getLsbD 7 = false) ∧
  State.reset.cfg.glyph = glyphRefAH

/-! The synchronizer. -/

/-- 30_encoding.md R74, with the requests and the gating of 43_interrupt_synchronizer.md R140 and R141. -/
def Obligations.ServiceVectorOfACycle : Prop :=
  ∀ (cfg : Config) (b : Block cfg) (w : InWord),
    (w.getLsbD 6 = true → b.serviceVectorOf w = 0b000#3) ∧
    (w.getLsbD 6 = false →
      (b.serviceVectorOf w).getLsbD 0 =
        ((b.pendD || w.getLsbD 1) && b.ctrl.getLsbD 0 && b.ctrl.getLsbD 1) ∧
      (b.serviceVectorOf w).getLsbD 1 =
        ((b.pendC || w.getLsbD 0) && b.ctrl.getLsbD 0 && b.ctrl.getLsbD 2) ∧
      (b.serviceVectorOf w).getLsbD 2 =
        ((b.serviceVectorOf w).getLsbD 1 && decide (b.y.val + 1 = cfg.trigger)))

/-- 43_interrupt_synchronizer.md R142: a serviced request leaves no pending flag, a masked one stays pending; and RST
clears both flags (R144). -/
def Obligations.PendingFlagUpdate : Prop :=
  ∀ (s : State) (w : InWord) (rest : List InWord), ∃ t, step { s with inputs := w :: rest } = .next t ∧
    (w.getLsbD 6 = true → t.blk.pendD = false ∧ t.blk.pendC = false) ∧
    (w.getLsbD 6 = false →
      t.blk.pendD = ((s.blk.pendD || w.getLsbD 1) && !(s.blk.serviceVectorOf w).getLsbD 0) ∧
      t.blk.pendC = ((s.blk.pendC || w.getLsbD 0) && !(s.blk.serviceVectorOf w).getLsbD 1))

/-- 10_state.md R30: a reload strobe is 1 for exactly the cycle that follows a service of its source. -/
def Obligations.ReloadStrobeFollowsService : Prop :=
  ∀ (s : State) (w : InWord) (rest : List InWord), ∃ t, step { s with inputs := w :: rest } = .next t ∧
    t.blk.rldD = (s.blk.serviceVectorOf w).getLsbD 0 ∧ t.blk.rldC = (s.blk.serviceVectorOf w).getLsbD 1

/-- A cycle performs exactly the operations its service vector names: the display registers after it are those
DISP_SVC leaves, or unchanged, and the counter registers those CNT_SVC leaves, or unchanged
(43_interrupt_synchronizer.md R149; 30_encoding.md R74). -/
def Obligations.CyclePerformsItsServiceVector : Prop :=
  ∀ (s : State) (w : InWord) (rest : List InWord), w.getLsbD 6 = false →
    ∃ b bd bc : Block s.cfg,
      step { s with inputs := w :: rest } = .next { s with inputs := rest, blk := b } ∧
      exec .dispSvc s = .next { s with blk := bd } ∧ exec .cntSvc s = .next { s with blk := bc } ∧
      (b.selOut, b.segOut, b.x) =
        (if (s.blk.serviceVectorOf w).getLsbD 0 then (bd.selOut, bd.segOut, bd.x)
         else (s.blk.selOut, s.blk.segOut, s.blk.x)) ∧
      (b.d, b.y) = (if (s.blk.serviceVectorOf w).getLsbD 1 then (bc.d, bc.y) else (s.blk.d, s.blk.y))

/-- A request that is masked stays pending over any number of cycles without RST and without a control write, and its
source's registers do not move meanwhile (43_interrupt_synchronizer.md R142; 60_exceptions.md R174). -/
def Obligations.MaskedRequestIsHeld : Prop :=
  ∀ (ws : List InWord) (s : State), (∀ w ∈ ws, w.getLsbD 6 = false ∧ w.getLsbD 2 = false) →
    ∃ t, runWords ws s = .next t ∧ t.blk.ctrl = s.blk.ctrl ∧
      (s.blk.pendD = true → (s.blk.gie && s.blk.den) = false →
        t.blk.pendD = true ∧ t.blk.x = s.blk.x ∧ t.blk.selOut = s.blk.selOut ∧ t.blk.segOut = s.blk.segOut) ∧
      (s.blk.pendC = true → (s.blk.gie && s.blk.cen) = false →
        t.blk.pendC = true ∧ t.blk.d = s.blk.d ∧ t.blk.y.val = s.blk.y.val)

/-- 70_reset_and_hazards.md R194: a request that is masked in the cycle of a CTRL_WR, pending before it or arriving in it,
is not lost, and is serviced in the first cycle after the CTRL_WR edge if the write turned its enables on, whatever the
enables were before and whatever that cycle's events are. -/
def Obligations.EnablingReleasesPendingRequests : Prop :=
  ∀ (s : State) (wdata : CtrlWord) (dispEv cntEv : Bool) (w : InWord), w.getLsbD 6 = false →
    ∃ t u, exec (.ctrlWr wdata dispEv cntEv) s = .next t ∧ exec (decodeIn w) t = .next u ∧
      ((s.blk.gie && s.blk.den) = false →
        t.blk.pendD = (s.blk.pendD || dispEv) ∧ t.blk.rldD = false ∧ t.blk.x = s.blk.x ∧
        ((s.blk.pendD || dispEv) = true → wdata.getLsbD 0 = true → wdata.getLsbD 1 = true →
          u.blk.pendD = false ∧ u.blk.rldD = true ∧ u.blk.selOut = selRom s.blk.x ∧
          u.blk.x.val = (s.blk.x.val + 1) % 4)) ∧
      ((s.blk.gie && s.blk.cen) = false →
        t.blk.pendC = (s.blk.pendC || cntEv) ∧ t.blk.rldC = false ∧ t.blk.y.val = s.blk.y.val ∧
        ((s.blk.pendC || cntEv) = true → wdata.getLsbD 0 = true → wdata.getLsbD 2 = true →
          u.blk.pendC = false ∧ u.blk.rldC = true ∧
          u.blk.y.val = (s.blk.y.val + 1) % s.cfg.trigger))

/-- 43_interrupt_synchronizer.md R151: an event whose source is already pending changes nothing: the step is the one
without that event. -/
def Obligations.MergedEventIsLost : Prop :=
  ∀ (s : State) (w : InWord) (rest : List InWord),
    (s.blk.pendD = true →
      step { s with inputs := (w ||| 0b0000010#7) :: rest } = step { s with inputs := (w &&& 0b1111101#7) :: rest }) ∧
    (s.blk.pendC = true →
      step { s with inputs := (w ||| 0b0000001#7) :: rest } = step { s with inputs := (w &&& 0b1111110#7) :: rest })

/-- 70_reset_and_hazards.md R195: a CTRL_WR does not gate its own cycle: but for `CTRL`, the cycle is the one of the
same word without the write strobe. -/
def Obligations.CtrlWriteTakesEffectNextCycle : Prop :=
  ∀ (s : State) (wdata : CtrlWord) (dispEv cntEv : Bool), ∃ b b' : Block s.cfg,
    exec (decodeIn (packIn wdata true dispEv cntEv)) s = .next { s with blk := b } ∧
    exec (decodeIn (packIn wdata false dispEv cntEv)) s = .next { s with blk := b' } ∧
    b'.ctrl = s.blk.ctrl ∧ b = { b' with ctrl := wdata }

/-! The cycle as a whole. -/

/-- 43_interrupt_synchronizer.md R150: the writes of a cycle's operations are disjoint, so the order in which they are
put together does not matter. -/
def Obligations.WritesOfACycleCommute : Prop :=
  ∀ (cfg : Config) (st : Strobes) (pre post : Block cfg),
    pre.syncWrites st (pre.dispSvcWrites post) = pre.dispSvcWrites (pre.syncWrites st post) ∧
    pre.syncWrites st (pre.cntSvcWrites post) = pre.cntSvcWrites (pre.syncWrites st post) ∧
    pre.dispSvcWrites (pre.cntSvcWrites post) = pre.cntSvcWrites (pre.dispSvcWrites post) ∧
    (pre.syncWrites st post).ctrlWrites st = pre.syncWrites st (post.ctrlWrites st) ∧
    (pre.dispSvcWrites post).ctrlWrites st = pre.dispSvcWrites (post.ctrlWrites st) ∧
    (pre.cntSvcWrites post).ctrlWrites st = pre.cntSvcWrites (post.ctrlWrites st)

/-- 20_memory.md R60: when DISP_SVC and INC meet in a cycle, the display shows the digit from before the increment; the
next DISP_SVC of that position, the fourth to follow, shows the new one. -/
def Obligations.SameCycleDisplayShowsOldDigit : Prop :=
  ∀ (s : State) (w : InWord) (rest : List InWord),
    (s.blk.serviceVectorOf w).getLsbD 0 = true → (s.blk.serviceVectorOf w).getLsbD 2 = true →
    ∃ t u, step { s with inputs := w :: rest } = .next t ∧ repeatExec .dispSvc 4 t = .next u ∧
      t.blk.segOut = s.cfg.glyph.get (s.blk.d.read s.blk.x) ∧ t.blk.selOut = selRom s.blk.x ∧
      t.blk.d.value = (s.blk.d.value + 1) % 10000 ∧
      u.blk.segOut = s.cfg.glyph.get (t.blk.d.read s.blk.x) ∧ u.blk.selOut = selRom s.blk.x

/-- Each register changes only at its owner's operations (10_state.md R20's owner column, R23 to R25, R27 to R29;
41_display_multiplexer.md R105): in a cycle without RST the digits hold without INC, `Y` without CNT_SVC, the cursor and
the two display outputs without DISP_SVC, and `CTRL` without CTRL_WR. -/
def Obligations.RegistersHoldWithoutTheirOwner : Prop :=
  ∀ (s : State) (w : InWord) (rest : List InWord), w.getLsbD 6 = false →
    ∃ b : Block s.cfg, step { s with inputs := w :: rest } = .next { s with inputs := rest, blk := b } ∧
      ((s.blk.serviceVectorOf w).getLsbD 2 = false → b.d = s.blk.d) ∧
      ((s.blk.serviceVectorOf w).getLsbD 1 = false → b.y = s.blk.y) ∧
      ((s.blk.serviceVectorOf w).getLsbD 0 = false →
        b.x = s.blk.x ∧ b.selOut = s.blk.selOut ∧ b.segOut = s.blk.segOut) ∧
      (w.getLsbD 2 = false → b.ctrl = s.blk.ctrl)

/-- The two sources do not disturb each other (60_exceptions.md R175): the display registers after a cycle do not
depend on the count source's registers or event, nor the counter's on the display source's. -/
def Obligations.SourcesDoNotInterfere : Prop :=
  ∀ (cfg : Config) (b c : Block cfg) (stb stc : Strobes), b.ctrl = c.ctrl →
    (b.pendD = c.pendD → stb.dispEv = stc.dispEv → b.d = c.d → b.x = c.x → b.selOut = c.selOut → b.segOut = c.segOut →
      (b.clockEdge stb).pendD = (c.clockEdge stc).pendD ∧ (b.clockEdge stb).rldD = (c.clockEdge stc).rldD ∧
      (b.clockEdge stb).x = (c.clockEdge stc).x ∧ (b.clockEdge stb).selOut = (c.clockEdge stc).selOut ∧
      (b.clockEdge stb).segOut = (c.clockEdge stc).segOut) ∧
    (b.pendC = c.pendC → stb.cntEv = stc.cntEv → b.d = c.d → b.y = c.y →
      (b.clockEdge stb).pendC = (c.clockEdge stc).pendC ∧ (b.clockEdge stb).rldC = (c.clockEdge stc).rldC ∧
      (b.clockEdge stb).d = (c.clockEdge stc).d ∧ (b.clockEdge stb).y = (c.clockEdge stc).y)

/-! Invariants. -/

/-- The invariant of the registers holds at reset, for every build. -/
def Obligations.CoherentAtReset : Prop :=
  (∀ cfg : Config, (resetBlock cfg).Coherent) ∧ State.reset.blk.Coherent

/-- Every step keeps the invariant: `SEL_OUT` is `0b1111` or the row of the position before the cursor, never anything
else (41_display_multiplexer.md R104, 10_state.md R36), the segments are blank or some digit's glyph, and no source is
both pending and just reloaded (43_interrupt_synchronizer.md R142, R143). -/
def Obligations.StepKeepsCoherent : Prop :=
  ∀ s t : State, s.blk.Coherent → step s = .next t → t.blk.Coherent

/-- The parameters and the ROM contents never change (00_scope.md R5, 10_state.md R31, R32). -/
def Obligations.ConfigurationNeverChanges : Prop :=
  (∀ s t : State, step s = .next t → t.cfg = s.cfg) ∧
  ∀ (i : Instr) (s t : State), exec i s = .next t →
    t.cfg = s.cfg ∧ t.inputs = s.inputs ∧ t.freeInputs = s.freeInputs

/-- 00_scope.md R5: the accumulator's width `W_Y` is the least positive number of bits that holds 0..TRIGGER-1, and the
registers of the block, each in its width of 10_state.md R20, fit into `37 + W_Y` bits without loss: 42 at the reference
trigger. (The packing of the registers into one vector is the model's notation, log 12.) -/
def Obligations.AccumulatorWidth : Prop :=
  (∀ cfg : Config, cfg.trigger ≤ 2 ^ accWidth cfg ∧ 1 ≤ accWidth cfg ∧
    ∀ n, 1 ≤ n → cfg.trigger ≤ 2 ^ n → accWidth cfg ≤ n) ∧
  (∀ cfg : Config, stateBits cfg = 37 + accWidth cfg ∧
    ∀ b c : Block cfg, b.packed = c.packed → b = c) ∧
  accWidth referenceConfig = 5 ∧ stateBits referenceConfig = 42

/-! The timers' contract, a premise of these two statements and of no other (60_exceptions.md R179). -/

/-- If a pending source's timer is neither armed nor being reloaded, then after a cycle whose events the contract
permits it still is not, and no event of that cycle merged. -/
def Obligations.ContractKeepsTimersCoherent : Prop :=
  ∀ (a : Arming) (s : State) (w : InWord) (rest : List InWord), a.Coherent s.blk → a.Permits s.blk w →
    NoMerge s.blk w ∧ ∃ t, step { s with inputs := w :: rest } = .next t ∧ (a.after s.blk w).Coherent t.blk

/-- 43_interrupt_synchronizer.md R151: under the contract two events of a source never merge, over any run, from reset
(whichever timers were started) and from every state in which no pending source's timer is armed. -/
def Obligations.ContractRulesOutMerges : Prop :=
  (∀ (ws : List InWord) (a : Arming) (s : State), a.Coherent s.blk → KeepsContract ws a s → NeverMerges ws s) ∧
  ∀ (ws : List InWord) (a : Arming), KeepsContract ws a State.reset → NeverMerges ws State.reset
end

