-- ==== Sys2Proof/Laws/State.lean ====
section
/-! SUPPORT. One lemma per field for each update of State, each true by unfolding, so that no proof unfolds a record
update. -/

namespace Sys2Proof.Machine

variable (s : State) (b c : Block s.cfg) (w : InWord)

@[simp] theorem withBlock_cfg : (s.withBlock b).cfg = s.cfg := rfl
@[simp] theorem withBlock_blk : (s.withBlock b).blk = b := rfl
@[simp] theorem withBlock_inputs : (s.withBlock b).inputs = s.inputs := rfl
@[simp] theorem withBlock_freeInputs : (s.withBlock b).freeInputs = s.freeInputs := rfl
@[simp] theorem withBlock_withBlock : (s.withBlock b).withBlock c = s.withBlock c := rfl
@[simp] theorem withBlock_self : s.withBlock s.blk = s := rfl

@[simp] theorem cycle_cfg (st : Strobes) : (s.cycle st).cfg = s.cfg := rfl
@[simp] theorem cycle_blk (st : Strobes) : (s.cycle st).blk = s.blk.clockEdge st := rfl
@[simp] theorem cycle_inputs (st : Strobes) : (s.cycle st).inputs = s.inputs := rfl
@[simp] theorem cycle_freeInputs (st : Strobes) : (s.cycle st).freeInputs = s.freeInputs := rfl

/-- A cycle changes the block alone, at the build it started with. -/
theorem cycle_eq_withBlock (st : Strobes) : s.cycle st = s.withBlock (s.blk.clockEdge st) := rfl

/-- A cycle after a change of the block: one change of the block, so that chained cycles stay at one build. -/
@[simp] theorem withBlock_cycle (st : Strobes) : (s.withBlock b).cycle st = s.withBlock (b.clockEdge st) := rfl

/-- Two cycles: two clock edges of the block. -/
theorem cycle_cycle (st st' : Strobes) :
    (s.cycle st).cycle st' = s.withBlock ((s.blk.clockEdge st).clockEdge st') := rfl

@[simp] theorem withInput_cfg : (s.withInput w).cfg = s.cfg := rfl
@[simp] theorem withInput_blk : (s.withInput w).blk = s.blk := rfl
@[simp] theorem withInput_inputs : (s.withInput w).inputs = w :: s.inputs.tail := rfl
@[simp] theorem withInput_freeInputs : (s.withInput w).freeInputs = s.freeInputs := rfl

/-- A placed word is the one sampled. -/
@[simp] theorem sample_cons (rest : List InWord) :
    ({ s with inputs := w :: rest } : State).sample = (w, { s with inputs := rest }) := rfl

/-- With no word placed, the sampled word is the next free one. -/
@[simp] theorem sample_nil :
    ({ s with inputs := [] } : State).sample =
      (Config.freeInput s.freeInputs, { s with inputs := [], freeInputs := s.freeInputs + 1 }) := rfl

/-- Sampling touches neither the parameters nor the registers, and takes one word. -/
theorem sample_cases :
    (∃ rest, s.inputs = s.sample.1 :: rest ∧ s.sample.2 = { s with inputs := rest }) ∨
      (s.inputs = [] ∧ s.sample = (Config.freeInput s.freeInputs, { s with freeInputs := s.freeInputs + 1 })) := by
  obtain ⟨cfg, blk, inputs, n⟩ := s
  cases inputs with
  | nil => exact .inr ⟨rfl, rfl⟩
  | cons w rest => exact .inl ⟨rest, rfl, rfl⟩

end Sys2Proof.Machine
end

