-- ==== Sys2Proof/Laws/Ops.lean ====
section
/-! SUPPORT. What each shared operation can do: one lemma per register for each group of writes, and the registers
after a clock edge. -/

namespace Sys2Proof.Machine

section writes

variable {cfg : Config} (st : Strobes) (pre post : Block cfg)

@[simp] theorem syncWrites_d : (pre.syncWrites st post).d = post.d := rfl
@[simp] theorem syncWrites_x : (pre.syncWrites st post).x = post.x := rfl
@[simp] theorem syncWrites_y : (pre.syncWrites st post).y = post.y := rfl
@[simp] theorem syncWrites_pendD : (pre.syncWrites st post).pendD = (pre.reqD st.dispEv && !pre.dsvc st.dispEv) := rfl
@[simp] theorem syncWrites_pendC : (pre.syncWrites st post).pendC = (pre.reqC st.cntEv && !pre.csvc st.cntEv) := rfl
@[simp] theorem syncWrites_ctrl : (pre.syncWrites st post).ctrl = post.ctrl := rfl
@[simp] theorem syncWrites_selOut : (pre.syncWrites st post).selOut = post.selOut := rfl
@[simp] theorem syncWrites_segOut : (pre.syncWrites st post).segOut = post.segOut := rfl
@[simp] theorem syncWrites_rldD : (pre.syncWrites st post).rldD = pre.dsvc st.dispEv := rfl
@[simp] theorem syncWrites_rldC : (pre.syncWrites st post).rldC = pre.csvc st.cntEv := rfl

@[simp] theorem dispSvcWrites_d : (pre.dispSvcWrites post).d = post.d := rfl
@[simp] theorem dispSvcWrites_x : (pre.dispSvcWrites post).x = pre.x + 1 := rfl
@[simp] theorem dispSvcWrites_y : (pre.dispSvcWrites post).y = post.y := rfl
@[simp] theorem dispSvcWrites_pendD : (pre.dispSvcWrites post).pendD = post.pendD := rfl
@[simp] theorem dispSvcWrites_pendC : (pre.dispSvcWrites post).pendC = post.pendC := rfl
@[simp] theorem dispSvcWrites_ctrl : (pre.dispSvcWrites post).ctrl = post.ctrl := rfl
@[simp] theorem dispSvcWrites_selOut : (pre.dispSvcWrites post).selOut = pre.selAtCursor := rfl
@[simp] theorem dispSvcWrites_segOut : (pre.dispSvcWrites post).segOut = pre.glyphAtCursor := rfl
@[simp] theorem dispSvcWrites_rldD : (pre.dispSvcWrites post).rldD = post.rldD := rfl
@[simp] theorem dispSvcWrites_rldC : (pre.dispSvcWrites post).rldC = post.rldC := rfl

@[simp] theorem incWrites_d : (pre.incWrites post).d = bcdInc pre.d := rfl
@[simp] theorem incWrites_x : (pre.incWrites post).x = post.x := rfl
@[simp] theorem incWrites_y : (pre.incWrites post).y = post.y := rfl
@[simp] theorem incWrites_pendD : (pre.incWrites post).pendD = post.pendD := rfl
@[simp] theorem incWrites_pendC : (pre.incWrites post).pendC = post.pendC := rfl
@[simp] theorem incWrites_ctrl : (pre.incWrites post).ctrl = post.ctrl := rfl
@[simp] theorem incWrites_selOut : (pre.incWrites post).selOut = post.selOut := rfl
@[simp] theorem incWrites_segOut : (pre.incWrites post).segOut = post.segOut := rfl
@[simp] theorem incWrites_rldD : (pre.incWrites post).rldD = post.rldD := rfl
@[simp] theorem incWrites_rldC : (pre.incWrites post).rldC = post.rldC := rfl

@[simp] theorem ctrlWrites_d : (post.ctrlWrites st).d = post.d := rfl
@[simp] theorem ctrlWrites_x : (post.ctrlWrites st).x = post.x := rfl
@[simp] theorem ctrlWrites_y : (post.ctrlWrites st).y = post.y := rfl
@[simp] theorem ctrlWrites_pendD : (post.ctrlWrites st).pendD = post.pendD := rfl
@[simp] theorem ctrlWrites_pendC : (post.ctrlWrites st).pendC = post.pendC := rfl
@[simp] theorem ctrlWrites_ctrl : (post.ctrlWrites st).ctrl = st.wdata := rfl
@[simp] theorem ctrlWrites_selOut : (post.ctrlWrites st).selOut = post.selOut := rfl
@[simp] theorem ctrlWrites_segOut : (post.ctrlWrites st).segOut = post.segOut := rfl
@[simp] theorem ctrlWrites_rldD : (post.ctrlWrites st).rldD = post.rldD := rfl
@[simp] theorem ctrlWrites_rldC : (post.ctrlWrites st).rldC = post.rldC := rfl

/-- CNT_SVC at the trigger: `Y` to 0, and INC. -/
theorem cntSvcWrites_of_trigger (h : pre.y.val + 1 = cfg.trigger) :
    pre.cntSvcWrites post = pre.incWrites { post with y := accZero cfg } := dif_pos h

/-- CNT_SVC below the trigger: `Y` one up, nothing else. -/
theorem cntSvcWrites_of_not_trigger (h : ¬ pre.y.val + 1 = cfg.trigger) :
    pre.cntSvcWrites post = { post with y := ⟨pre.y.val + 1, pre.y_succ_lt h⟩ } := dif_neg h

/-- Everything CNT_SVC can do. -/
theorem cntSvcWrites_cases :
    (pre.y.val + 1 = cfg.trigger ∧
      pre.cntSvcWrites post = { post with y := accZero cfg, d := bcdInc pre.d }) ∨
    (∃ h : pre.y.val + 1 < cfg.trigger, pre.cntSvcWrites post = { post with y := ⟨pre.y.val + 1, h⟩ }) := by
  by_cases h : pre.y.val + 1 = cfg.trigger
  · exact .inl ⟨h, cntSvcWrites_of_trigger pre post h⟩
  · exact .inr ⟨pre.y_succ_lt h, cntSvcWrites_of_not_trigger pre post h⟩

@[simp] theorem cntSvcWrites_x : (pre.cntSvcWrites post).x = post.x := by
  unfold Block.cntSvcWrites; split <;> rfl
@[simp] theorem cntSvcWrites_pendD : (pre.cntSvcWrites post).pendD = post.pendD := by
  unfold Block.cntSvcWrites; split <;> rfl
@[simp] theorem cntSvcWrites_pendC : (pre.cntSvcWrites post).pendC = post.pendC := by
  unfold Block.cntSvcWrites; split <;> rfl
@[simp] theorem cntSvcWrites_ctrl : (pre.cntSvcWrites post).ctrl = post.ctrl := by
  unfold Block.cntSvcWrites; split <;> rfl
@[simp] theorem cntSvcWrites_selOut : (pre.cntSvcWrites post).selOut = post.selOut := by
  unfold Block.cntSvcWrites; split <;> rfl
@[simp] theorem cntSvcWrites_segOut : (pre.cntSvcWrites post).segOut = post.segOut := by
  unfold Block.cntSvcWrites; split <;> rfl
@[simp] theorem cntSvcWrites_rldD : (pre.cntSvcWrites post).rldD = post.rldD := by
  unfold Block.cntSvcWrites; split <;> rfl
@[simp] theorem cntSvcWrites_rldC : (pre.cntSvcWrites post).rldC = post.rldC := by
  unfold Block.cntSvcWrites; split <;> rfl

/-- The digits CNT_SVC writes do not depend on what else the cycle writes, but where it writes none. -/
theorem cntSvcWrites_d : (pre.cntSvcWrites post).d =
    if pre.y.val + 1 = cfg.trigger then bcdInc pre.d else post.d := by
  unfold Block.cntSvcWrites; split <;> rfl

/-- The accumulator CNT_SVC writes depends on the pre-edge block alone. -/
theorem cntSvcWrites_y (q : Block cfg) : (pre.cntSvcWrites post).y = (pre.cntSvcWrites q).y := by
  unfold Block.cntSvcWrites; split <;> rfl

theorem cntSvcWrites_y_val : (pre.cntSvcWrites post).y.val =
    if pre.y.val + 1 = cfg.trigger then 0 else pre.y.val + 1 := by
  unfold Block.cntSvcWrites; split <;> rfl

@[simp] theorem performIf_true (a b : Block cfg) : Block.performIf true a b = a := rfl
@[simp] theorem performIf_false (a b : Block cfg) : Block.performIf false a b = b := rfl

end writes

section clockEdge

/-! The registers after a clock edge without RST (43_interrupt_synchronizer.md R149). -/

variable {cfg : Config} (b : Block cfg) (st : Strobes)

theorem clockEdge_d : (b.clockEdge st).d = if b.csvc st.cntEv then (b.cntSvcWrites b).d else b.d := by
  unfold Block.clockEdge Block.performIf
  cases b.dsvc st.dispEv <;> cases b.csvc st.cntEv <;> cases st.ctrlWe <;> simp [cntSvcWrites_d]

theorem clockEdge_x : (b.clockEdge st).x = if b.dsvc st.dispEv then b.x + 1 else b.x := by
  unfold Block.clockEdge Block.performIf
  cases b.dsvc st.dispEv <;> cases b.csvc st.cntEv <;> cases st.ctrlWe <;> simp

theorem clockEdge_y : (b.clockEdge st).y = if b.csvc st.cntEv then (b.cntSvcWrites b).y else b.y := by
  unfold Block.clockEdge Block.performIf
  cases b.dsvc st.dispEv <;> cases b.csvc st.cntEv <;> cases st.ctrlWe <;> simp [cntSvcWrites_y b _ b]

theorem clockEdge_pendD : (b.clockEdge st).pendD = (b.reqD st.dispEv && !b.dsvc st.dispEv) := by
  unfold Block.clockEdge Block.performIf
  cases hd : b.dsvc st.dispEv <;> cases b.csvc st.cntEv <;> cases st.ctrlWe <;> simp [hd]

theorem clockEdge_pendC : (b.clockEdge st).pendC = (b.reqC st.cntEv && !b.csvc st.cntEv) := by
  unfold Block.clockEdge Block.performIf
  cases b.dsvc st.dispEv <;> cases hc : b.csvc st.cntEv <;> cases st.ctrlWe <;> simp [hc]

theorem clockEdge_ctrl : (b.clockEdge st).ctrl = if st.ctrlWe then st.wdata else b.ctrl := by
  unfold Block.clockEdge Block.performIf
  cases b.dsvc st.dispEv <;> cases b.csvc st.cntEv <;> cases st.ctrlWe <;> simp

theorem clockEdge_selOut : (b.clockEdge st).selOut = if b.dsvc st.dispEv then b.selAtCursor else b.selOut := by
  unfold Block.clockEdge Block.performIf
  cases b.dsvc st.dispEv <;> cases b.csvc st.cntEv <;> cases st.ctrlWe <;> simp

theorem clockEdge_segOut : (b.clockEdge st).segOut = if b.dsvc st.dispEv then b.glyphAtCursor else b.segOut := by
  unfold Block.clockEdge Block.performIf
  cases b.dsvc st.dispEv <;> cases b.csvc st.cntEv <;> cases st.ctrlWe <;> simp

theorem clockEdge_rldD : (b.clockEdge st).rldD = b.dsvc st.dispEv := by
  unfold Block.clockEdge Block.performIf
  cases hd : b.dsvc st.dispEv <;> cases b.csvc st.cntEv <;> cases st.ctrlWe <;> simp [hd]

theorem clockEdge_rldC : (b.clockEdge st).rldC = b.csvc st.cntEv := by
  unfold Block.clockEdge Block.performIf
  cases b.dsvc st.dispEv <;> cases hc : b.csvc st.cntEv <;> cases st.ctrlWe <;> simp [hc]

end clockEdge

section exec

/-! What `exec` answers, one lemma an operation. -/

variable (s : State)

theorem exec_rst (ignored : BitVec 6) : exec (.rst ignored) s = .next (s.withBlock (resetBlock s.cfg)) := rfl

theorem exec_ctrlWr (wdata : CtrlWord) (de ce : Bool) :
    exec (.ctrlWr wdata de ce) s = .next (s.cycle ⟨true, wdata, de, ce⟩) := rfl

theorem exec_dispEv (wdata : CtrlWord) (we ce : Bool) :
    exec (.dispEv wdata we ce) s = .next (s.cycle ⟨we, wdata, true, ce⟩) := rfl

theorem exec_cntEv (wdata : CtrlWord) (we de : Bool) :
    exec (.cntEv wdata we de) s = .next (s.cycle ⟨we, wdata, de, true⟩) := rfl

theorem exec_idle (wdata : CtrlWord) : exec (.idle wdata) s = .next (s.cycle ⟨false, wdata, false, false⟩) := rfl

theorem exec_dispSvc : exec .dispSvc s = .next (s.withBlock (s.blk.dispSvcWrites s.blk)) := rfl

theorem exec_cntSvc : exec .cntSvc s = .next (s.withBlock (s.blk.cntSvcWrites s.blk)) := rfl

theorem exec_inc : exec .inc s = .next (s.withBlock (s.blk.incWrites s.blk)) := rfl

end exec

end Sys2Proof.Machine
end

