-- ==== Sys2Proof/Laws/Digits.lean ====
section
/-! SUPPORT. The carry chain of INC (42_counter_engine.md R122). -/

namespace Sys2Proof.Machine

/-- One digit of the chain: the digit and the carry out add up to the digit and the carry in. -/
theorem digitAdd_sum (d : Digit) (c : Bool) :
    (digitAdd d c).1.val + 10 * (digitAdd d c).2.toNat = d.val + c.toNat := by
  have hd := d.isLt
  have hc : c.toNat ≤ 1 := Bool.toNat_le c
  unfold digitAdd
  split
  · simp
  · simp only [Bool.toNat_true]
    show 0 + 10 * 1 = d.val + c.toNat
    omega

/-- A digit carries exactly when it is 9 and takes a carry. -/
theorem digitAdd_carry (d : Digit) (c : Bool) : (digitAdd d c).2 = (c && decide (d.val = 9)) := by
  revert d c; decide

/-- A digit after the chain, with its carry in. -/
theorem digitAdd_val (d : Digit) (c : Bool) : (digitAdd d c).1.val = (d.val + c.toNat) % 10 := by
  have := digitAdd_sum d c
  have := (digitAdd d c).1.isLt
  omega

/-- The value of the digit file is a four-digit number. -/
theorem value_lt (d : DigitFile) : d.value < 10000 := by
  have h0 := d.d0.isLt
  have h1 := d.d1.isLt
  have h2 := d.d2.isLt
  have h3 := d.d3.isLt
  unfold DigitFile.value
  omega

/-- Equal values are equal digits. -/
theorem digits_ext_of_value {d e : DigitFile} (h : d.value = e.value) : d = e := by
  obtain ⟨d0, d1, d2, d3⟩ := d
  obtain ⟨e0, e1, e2, e3⟩ := e
  simp only [DigitFile.value] at h
  simp only [DigitFile.mk.injEq, Fin.ext_iff]
  omega

end Sys2Proof.Machine
end

