-- ==== Sys2Proof/Laws/Cycle.lean ====
section
/-! SUPPORT. What a step can do: RST, or the clock edge of the word's strobes, whichever row the word is read in. -/

namespace Sys2Proof.Machine

/-- The strobes of an input word whose RST bit is 0 (30_encoding.md R71). -/
abbrev strobesOf (w : InWord) : Strobes := ⟨ctrlWeField w, wdataField w, dispEvField w, cntEvField w⟩

theorem rowRst_hits : ∀ w : InWord, rowRst.hits w = w.getLsbD 6 := by decide

theorem rowCtrlWr_hits : ∀ w : InWord, rowCtrlWr.hits w = (!w.getLsbD 6 && w.getLsbD 2) := by decide

theorem rowDispEv_hits : ∀ w : InWord, rowDispEv.hits w = (!w.getLsbD 6 && w.getLsbD 1) := by decide

theorem rowCntEv_hits : ∀ w : InWord, rowCntEv.hits w = (!w.getLsbD 6 && w.getLsbD 0) := by decide

theorem rowIdle_hits : ∀ w : InWord, rowIdle.hits w =
    (!w.getLsbD 6 && !w.getLsbD 2 && !w.getLsbD 1 && !w.getLsbD 0) := by decide

/-- An RST word decodes to RST. -/
theorem decodeIn_of_rst {w : InWord} (h : w.getLsbD 6 = true) : decodeIn w = readRst w := by
  simp [decodeIn, rowRst_hits, h]

/-- A word with bit 6 clear is, as an operation, the clock cycle of its strobes. -/
theorem exec_decodeIn {w : InWord} (h : w.getLsbD 6 = false) (s : State) :
    exec (decodeIn w) s = .next (s.cycle (strobesOf w)) := by
  simp only [decodeIn, rowRst_hits, rowCtrlWr_hits, rowDispEv_hits, rowCntEv_hits, h]
  cases h2 : w.getLsbD 2 <;> cases h1 : w.getLsbD 1 <;> cases h0 : w.getLsbD 0 <;>
    simp only [readCtrlWr, readDispEv, readCntEv, readIdle, exec_ctrlWr, exec_dispEv, exec_cntEv, exec_idle,
      strobesOf, ctrlWeField, dispEvField, cntEvField, h2, h1, h0, Bool.not_false, Bool.and_self, Bool.and_false,
      Bool.false_eq_true, if_true, if_false]

/-- Everything a decoded word can do. -/
theorem exec_decodeIn_cases (w : InWord) (s : State) :
    (w.getLsbD 6 = true ∧ exec (decodeIn w) s = .next (s.withBlock (resetBlock s.cfg))) ∨
      (w.getLsbD 6 = false ∧ exec (decodeIn w) s = .next (s.cycle (strobesOf w))) := by
  cases h : w.getLsbD 6 with
  | true => exact .inl ⟨rfl, by rw [decodeIn_of_rst h]; exact exec_rst s _⟩
  | false => exact .inr ⟨rfl, exec_decodeIn h s⟩

/-- A step is the decoded word at the state with the word consumed. -/
theorem step_cons (s : State) (w : InWord) (rest : List InWord) :
    step { s with inputs := w :: rest } = exec (decodeIn w) { s with inputs := rest } := rfl

/-- Everything a step on a placed word can do. -/
theorem step_cons_cases (s : State) (w : InWord) (rest : List InWord) :
    (w.getLsbD 6 = true ∧
      step { s with inputs := w :: rest } = .next { s with inputs := rest, blk := resetBlock s.cfg }) ∨
    (w.getLsbD 6 = false ∧
      step { s with inputs := w :: rest } =
        .next { s with inputs := rest, blk := s.blk.clockEdge (strobesOf w) }) :=
  exec_decodeIn_cases w { s with inputs := rest }

/-- Everything a step can do, wherever its word comes from: the parameters stay, the block is reset or takes one clock
edge. -/
theorem step_cases {s t : State} (h : step s = .next t) :
    ∃ (w : InWord) (ins : List InWord) (n : Nat),
      t = { s with inputs := ins, freeInputs := n, blk := resetBlock s.cfg } ∨
      t = { s with inputs := ins, freeInputs := n, blk := s.blk.clockEdge (strobesOf w) } := by
  obtain ⟨cfg, blk, inputs, n⟩ := s
  cases inputs with
  | cons w rest =>
    refine ⟨w, rest, n, ?_⟩
    obtain ⟨-, e⟩ | ⟨-, e⟩ := step_cons_cases ⟨cfg, blk, [], n⟩ w rest
    · exact .inl (by cases e.symm.trans h; rfl)
    · exact .inr (by cases e.symm.trans h; rfl)
  | nil =>
    refine ⟨Config.freeInput n, [], n + 1, ?_⟩
    obtain ⟨-, e⟩ | ⟨-, e⟩ := exec_decodeIn_cases (Config.freeInput n) ⟨cfg, blk, [], n + 1⟩
    · exact .inl (by cases e.symm.trans h; rfl)
    · exact .inr (by cases e.symm.trans h; rfl)

/-- The bits of a cycle's service vector (30_encoding.md R74). -/
theorem serviceVectorOf_bits {cfg : Config} (b : Block cfg) (w : InWord) :
    (b.serviceVectorOf w).getLsbD 0 = (!w.getLsbD 6 && b.dsvc (w.getLsbD 1)) ∧
    (b.serviceVectorOf w).getLsbD 1 = (!w.getLsbD 6 && b.csvc (w.getLsbD 0)) ∧
    (b.serviceVectorOf w).getLsbD 2 = (!w.getLsbD 6 && b.csvc (w.getLsbD 0) && b.atTrigger) := by
  unfold Block.serviceVectorOf Block.serviceVector
  generalize b.dsvc _ = d
  generalize b.csvc _ = c
  generalize b.atTrigger = t
  generalize w.getLsbD 6 = r
  revert d c t r; decide

end Sys2Proof.Machine
end

