-- ==== Sys2Proof/Laws/PerInstr.lean ====
section
/-! SUPPORT. Facts about every operation as syntax, one lemma a constructor: the word an operation encodes to matches
the operation's row of the opcode table (30_encoding.md R75). -/

namespace Sys2Proof.Laws

/-- The mask and the match of an operation's row, as numbers. -/
def MatchesRow.maskOf : Instr → Nat × Nat
  | .rst _ => (0x40, 0x40)
  | .ctrlWr _ _ _ => (0x44, 0x04)
  | .dispEv _ _ _ => (0x42, 0x02)
  | .cntEv _ _ _ => (0x41, 0x01)
  | .idle _ => (0x47, 0x00)
  | .dispSvc => (0b001, 0b001)
  | .cntSvc => (0b010, 0b010)
  | .inc => (0b110, 0b110)

/-- A word as a number, bit 0 the least significant. -/
def MatchesRow.bitsOf : CodeWord → Nat
  | .inWord w => w.toNat
  | .svWord w => w.toNat

/-- The operation's word, under its row's mask, is its row's match. -/
def MatchesRow.Statement (i : Instr) : Prop :=
  MatchesRow.bitsOf (encode i) &&& (MatchesRow.maskOf i).1 = (MatchesRow.maskOf i).2

theorem packIn_and (a : CtrlWord) (b c d : Bool) (m : InWord) :
    (packIn a b c d).toNat &&& m.toNat = (packIn a b c d &&& m).toNat := (BitVec.toNat_and ..).symm

theorem MatchesRow.rst (ignored : BitVec 6) : MatchesRow.Statement (.rst ignored) := by
  revert ignored; unfold MatchesRow.Statement; decide

theorem MatchesRow.ctrlWr (wdata : CtrlWord) (de ce : Bool) : MatchesRow.Statement (.ctrlWr wdata de ce) := by
  revert wdata de ce; unfold MatchesRow.Statement; decide

theorem MatchesRow.dispEv (wdata : CtrlWord) (we ce : Bool) : MatchesRow.Statement (.dispEv wdata we ce) := by
  revert wdata we ce; unfold MatchesRow.Statement; decide

theorem MatchesRow.cntEv (wdata : CtrlWord) (we de : Bool) : MatchesRow.Statement (.cntEv wdata we de) := by
  revert wdata we de; unfold MatchesRow.Statement; decide

theorem MatchesRow.idle (wdata : CtrlWord) : MatchesRow.Statement (.idle wdata) := by
  revert wdata; unfold MatchesRow.Statement; decide

theorem MatchesRow.dispSvc : MatchesRow.Statement .dispSvc := rfl

theorem MatchesRow.cntSvc : MatchesRow.Statement .cntSvc := rfl

theorem MatchesRow.inc : MatchesRow.Statement .inc := rfl

end Sys2Proof.Laws
end

