-- ==== Sys2Proof/Tests/Slice0.lean ====
section
/-! SUPPORT. The model's own tests. Expected values come from the spec's worked examples (95_test_vectors.md, and the
examples of the rules named), not from the model. -/

namespace Sys2Proof.Tests

open Sys2Proof.Machine

/-! Well-formed spellings. -/

theorem test_wf_refuses_display_event_with_write : (Instr.dispEv 0b111#3 true false).WellFormed = false := by decide

theorem test_wf_refuses_count_event_with_write : (Instr.cntEv 0b111#3 true false).WellFormed = false := by decide

theorem test_wf_refuses_count_event_with_display_event :
    (Instr.cntEv 0b000#3 false true).WellFormed = false := by decide

theorem test_wf_accepts_write_with_both_events : (Instr.ctrlWr 0b111#3 true true).WellFormed = true := by decide

/-! Words written out from 30_encoding.md R71 and R75, bit by bit from bit 6 down: RST, three bits of CTRL_WDATA,
CTRL_WE, DISP_EV, CNT_EV. -/

theorem test_decode_rst : decode (.inWord 0b1_000_0_1_1#7) = .ok (.rst 0b000011#6) := by decide

theorem test_decode_ctrlWr : decode (.inWord 0b0_101_1_0_0#7) = .ok (.ctrlWr 0b101#3 false false) := by decide

theorem test_decode_ctrlWr_with_events : decode (.inWord 0b0_110_1_1_1#7) = .ok (.ctrlWr 0b110#3 true true) := by decide

theorem test_decode_dispEv : decode (.inWord 0b0_000_0_1_0#7) = .ok (.dispEv 0b000#3 false false) := by decide

theorem test_decode_both_events : readingsIn 0b0_000_0_1_1#7 =
    [.dispEv 0b000#3 false true, .cntEv 0b000#3 false true] := by decide

theorem test_decode_cntEv : decode (.inWord 0b0_000_0_0_1#7) = .ok (.cntEv 0b000#3 false false) := by decide

theorem test_decode_idle_ignores_data : decode (.inWord 0b0_111_0_0_0#7) = .ok (.idle 0b111#3) := by decide

theorem test_decode_dispSvc : decode (.svWord 0b001#3) = .ok .dispSvc := by decide

theorem test_decode_cntSvc : decode (.svWord 0b010#3) = .ok .cntSvc := by decide

theorem test_decode_inc : decode (.svWord 0b110#3) = .ok .inc := by decide

theorem test_service_vector_names_all_three : readingsSv 0b111#3 = .ok [.dispSvc, .cntSvc, .inc] := by rfl

theorem test_inc_without_cntSvc_is_refused :
    decode (.svWord 0b100#3) = .error .incWithoutCntSvc ∧ decode (.svWord 0b101#3) = .error .incWithoutCntSvc := by decide

theorem test_table_words : decodeTableWord 8 0x40 = some (.rst 0#6) ∧ decodeTableWord 8 0x04 = some (.ctrlWr 0#3 false false) ∧
    decodeTableWord 3 0b110 = some .inc ∧ decodeTableWord 8 0x80 = none := by decide

/-! One cycle or one operation on a small state. -/

/-- A state of the reference build. -/
def demo (b : Block referenceConfig) : State := ⟨referenceConfig, b, [], 0⟩

/-- The reset block of the reference build. -/
def quiet : Block referenceConfig := resetBlock referenceConfig

/-- All enables on, digits `1234`, the cursor at `x`. -/
def showing (x : Pos) : Block referenceConfig := { quiet with ctrl := 0b111#3, d := ⟨1, 2, 3, 4⟩, x := x }

/-- All enables on, the accumulator one below the trigger. -/
def aboutToTrigger (d : DigitFile) : Block referenceConfig := { quiet with ctrl := 0b111#3, d := d, y := ⟨19, by decide⟩ }

/-- The start state of 95 section 2.6: every register away from its reset value. -/
def everythingSet : Block referenceConfig where
  d := ⟨4, 7, 1, 1⟩
  x := 2
  y := ⟨13, by decide⟩
  pendD := true
  pendC := true
  ctrl := 0b111#3
  selOut := 0b1011#4
  segOut := 0x07#8
  rldD := true
  rldC := true

/-- What a question about the next state answers; false where there is no next state. -/
def afterwards (o : Host.Outcome State Fault Refusal) (q : State → Bool) : Bool :=
  match o with
  | .next t => q t
  | .fault _ => false
  | .refused _ => false

/-- One step of the reference build with the block `b` and the input word `w`. -/
def cycleOf (b : Block referenceConfig) (w : InWord) : Host.Outcome State Fault Refusal := step ((demo b).withInput w)

/-- 95 section 2.6: every register set, then `0x7F`. -/
theorem test_rst_discards_events_and_write : afterwards (cycleOf everythingSet 0x7F#7)
    (fun t => t == demo quiet) = true := by decide

/-- 95 S1: the write gates no service of its own cycle. -/
theorem test_ctrlWr_old_value_gates : afterwards (cycleOf { quiet with pendC := true } 0x3C#7)
    (fun t => t.blk.ctrl == 0b111#3 && t.blk.pendC && t.blk.y.val == 0 && !t.blk.rldC) = true := by decide

/-- 95 S3: a write that disables, with a display event, lets the service of its cycle happen. -/
theorem test_ctrlWr_with_display_event : afterwards (cycleOf { quiet with ctrl := 0b111#3 } 0x06#7)
    (fun t => t.blk.ctrl == 0b000#3 && t.blk.x == 1 && t.blk.selOut == 0b1110#4 && t.blk.rldD) = true := by decide

/-- 43 R146, the example: select, glyph, cursor, reload, no pending flag. -/
theorem test_dispEv_served : afterwards (cycleOf { quiet with ctrl := 0b111#3 } 0x02#7)
    (fun t => t.blk.selOut == 0b1110#4 && t.blk.segOut == 0x3F#8 && t.blk.x == 1 && t.blk.rldD && !t.blk.pendD) = true := by
  decide

/-- 95 S4: display enabled, count masked. -/
theorem test_dispEv_with_masked_count : afterwards
    (cycleOf { quiet with ctrl := 0b011#3, y := ⟨5, by decide⟩ } 0x03#7)
    (fun t => t.blk.rldD && !t.blk.rldC && t.blk.pendC && !t.blk.pendD && t.blk.y.val == 5) = true := by decide

/-- 43 R147, the example: the trigger, `"0009"` to `"0010"`. -/
theorem test_cntEv_triggers : afterwards (cycleOf (aboutToTrigger ⟨0, 0, 0, 9⟩) 0x01#7)
    (fun t => t.blk.y.val == 0 && t.blk.d == ⟨0, 0, 1, 0⟩ && t.blk.rldC) = true := by decide

/-- 95 P4, cycle 0: display and increment in one cycle show the old digit. -/
theorem test_cntEv_with_display_shows_old_digit : afterwards
    (cycleOf { aboutToTrigger ⟨0, 9, 9, 9⟩ with x := 1 } 0x03#7)
    (fun t => t.blk.d == ⟨1, 0, 0, 0⟩ && t.blk.x == 2 && t.blk.selOut == 0b1101#4 && t.blk.segOut == 0x6F#8) = true := by
  decide

/-- 43 R148, the example: an idle cycle serves a pending display request. -/
theorem test_idle_serves_pending : afterwards
    (cycleOf { quiet with ctrl := 0b111#3, pendD := true, x := 3, d := ⟨0, 0, 4, 2⟩ } 0x00#7)
    (fun t => t.blk.selOut == 0b0111#4 && t.blk.segOut == 0x5B#8 && t.blk.x == 0 && !t.blk.pendD && t.blk.rldD) = true := by
  decide

/-- 95 S6: with nothing pending an idle cycle clears the strobes and nothing else. -/
theorem test_idle_clears_strobes : afterwards (cycleOf { showing 1 with rldD := true, rldC := true } 0x38#7)
    (fun t => t == demo (showing 1)) = true := by decide

/-- 95 section 2.3, `X = 2`. -/
theorem test_dispSvc : afterwards (exec .dispSvc (demo (showing 2)))
    (fun t => t.blk.selOut == 0b1011#4 && t.blk.segOut == 0x4F#8 && t.blk.x == 3) = true := by decide

/-- 95 section 2.3, `X = 3`: the cursor wraps. -/
theorem test_dispSvc_wraps : afterwards (exec .dispSvc (demo (showing 3)))
    (fun t => t.blk.selOut == 0b0111#4 && t.blk.segOut == 0x66#8 && t.blk.x == 0) = true := by decide

/-- 95 section 2.4, `Y = 18`: one before the trigger. -/
theorem test_cntSvc_below_trigger : afterwards
    (exec .cntSvc (demo { quiet with y := ⟨18, by decide⟩, d := ⟨0, 0, 9, 9⟩ }))
    (fun t => t.blk.y.val == 19 && t.blk.d == ⟨0, 0, 9, 9⟩) = true := by decide

/-- The reference build with `TRIGGER = 1`. -/
def everyTick : Config := { referenceConfig with trigger := 1, trigger_pos := by decide }

/-- 95 section 2.4, `TRIGGER = 1`: every service increments. -/
theorem test_cntSvc_trigger_one : afterwards (exec .cntSvc ⟨everyTick, resetBlock everyTick, [], 0⟩)
    (fun t => t.blk.y.val == 0 && t.blk.d == ⟨0, 0, 0, 1⟩) = true := by decide

/-- 95 section 2.5, the carry patterns, each file with the file after INC. -/
theorem test_inc_carries : ([(⟨0, 0, 0, 0⟩, ⟨0, 0, 0, 1⟩), (⟨0, 0, 0, 9⟩, ⟨0, 0, 1, 0⟩), (⟨0, 1, 9, 9⟩, ⟨0, 2, 0, 0⟩),
    (⟨0, 9, 0, 9⟩, ⟨0, 9, 1, 0⟩), (⟨0, 9, 9, 9⟩, ⟨1, 0, 0, 0⟩), (⟨8, 9, 9, 9⟩, ⟨9, 0, 0, 0⟩), (⟨9, 0, 9, 9⟩, ⟨9, 1, 0, 0⟩),
    (⟨9, 9, 0, 9⟩, ⟨9, 9, 1, 0⟩), (⟨9, 9, 9, 0⟩, ⟨9, 9, 9, 1⟩)] : List (DigitFile × DigitFile)).all
    (fun p => bcdInc p.1 == p.2) = true := by decide

/-- 95 W13: `"9999"` wraps to `"0000"`. -/
theorem test_inc_wraps : afterwards (exec .inc (demo { quiet with d := ⟨9, 9, 9, 9⟩ }))
    (fun t => t.blk.d == ⟨0, 0, 0, 0⟩) = true := by decide

/-- 20 R51: the packed form of `"1234"`. -/
theorem test_packed_digits : (DigitFile.packed ⟨1, 2, 3, 4⟩) = 0x1234#16 := by decide

/-- 10 R20's table on the start state of 95 section 2.6: `D X Y PEND_D PEND_C CTRL SEL_OUT SEG_OUT RLD_D RLD_C`. -/
theorem test_packed_block : everythingSet.packed.toNat = 0b0100_0111_0001_0001_10_01101_1_1_111_1011_00000111_1_1 := by
  decide

/-- 95 W15: `TRIGGER * CNT_PERIOD` is one second at the reference values. -/
theorem test_one_second : referenceConfig.trigger * referenceConfig.cntPeriodMicros = 1000000 := by decide

/-- A placed input word is what the next step decodes; a placed service word is the next idle cycle's service vector. -/
theorem test_placed_words : ((State.reset.withFetchWord 8 0x3F).sample.1 = 0x3F#7) ∧
    ∀ sv : SvWord, (sv.getLsbD 2 && !sv.getLsbD 1) = false →
      (State.reset.withService sv).blk.serviceVectorOf (State.reset.withService sv).sample.1 = sv := by decide

/-! Witnesses: for each statement with hypotheses, values that meet all of them together. -/

theorem witness_DecodeOfEncode : (Instr.dispEv 0b101#3 false true).WellFormed = true := by decide

theorem witness_EveryInputWordIsLegal :
    ((0x40#7).getLsbD 6 = true ∧ (0x7F#7).getLsbD 6 = true) ∧
    ((0x03#7).getLsbD 6 = (0x3B#7).getLsbD 6 ∧ (0x03#7).getLsbD 2 = false ∧ (0x3B#7).getLsbD 2 = false ∧
      (0x03#7).getLsbD 1 = (0x3B#7).getLsbD 1 ∧ (0x03#7).getLsbD 0 = (0x3B#7).getLsbD 0) := by decide

theorem witness_ReadingsOfAWordAgree : Instr.cntEv 0b000#3 false true ∈ readingsIn 0x03#7 := by decide

theorem witness_ImpossibleServiceVectorsNeverOccur : (0b111#3 : SvWord) ≠ 0b100#3 ∧ (0b111#3 : SvWord) ≠ 0b101#3 := by decide

/-- Both halves served and triggering, both served below the trigger, and neither served. -/
theorem witness_StepIsTheCycleFunction :
    ((0x40#7).getLsbD 6 = true ∧ (0x03#7).getLsbD 6 = false) ∧
    ((aboutToTrigger ⟨9, 9, 9, 9⟩).serviceVectorOf 0x03#7 = 0b111#3 ∧ (aboutToTrigger ⟨9, 9, 9, 9⟩).y.val + 1 = 20) ∧
    ((showing 3).serviceVectorOf 0x03#7 = 0b011#3 ∧ (showing 3).y.val + 1 ≠ 20) ∧
    quiet.serviceVectorOf 0x03#7 = 0b000#3 := by decide

theorem witness_ResetWordDominatesItsCycle : (0x43#7).getLsbD 6 = true := by decide

theorem witness_ResetFromAnyState : 0x40#7 &&& 0x40#7 = 0x40#7 ∧ 0x7F#7 &&& 0x40#7 = 0x40#7 := by decide

/-- A write with both events: both served at the trigger, both served below it, neither served. -/
theorem witness_CtrlWriteCycleResult :
    ((aboutToTrigger ⟨9, 9, 9, 9⟩).dsvc true = true ∧ (aboutToTrigger ⟨9, 9, 9, 9⟩).csvc true = true ∧
      (aboutToTrigger ⟨9, 9, 9, 9⟩).y.val + 1 = 20) ∧
    ((showing 3).csvc true = true ∧ (showing 3).y.val + 1 ≠ 20) ∧
    (quiet.dsvc true = false ∧ quiet.csvc true = false) := by decide

/-- The display event served and masked, with the count half served at the trigger, below it, and not served. -/
theorem witness_DisplayEventCycleResult :
    ((aboutToTrigger ⟨0, 9, 9, 9⟩).dsvc true = true ∧ (aboutToTrigger ⟨0, 9, 9, 9⟩).csvc true = true ∧
      (aboutToTrigger ⟨0, 9, 9, 9⟩).y.val + 1 = 20) ∧
    ((showing 3).csvc true = true ∧ (showing 3).y.val + 1 ≠ 20) ∧
    (quiet.dsvc true = false ∧ (showing 3).csvc false = false) := by decide

/-- The count event served at the trigger, below it, and masked, with the display half served and not served. -/
theorem witness_CountEventCycleResult :
    ((aboutToTrigger ⟨0, 0, 0, 9⟩).csvc true = true ∧ (aboutToTrigger ⟨0, 0, 0, 9⟩).y.val + 1 = 20) ∧
    ((showing 3).csvc true = true ∧ (showing 3).y.val + 1 ≠ 20) ∧
    quiet.csvc true = false ∧ (showing 3).dsvc true = true ∧ (showing 3).dsvc false = false := by decide

/-- Pending requests served at the trigger and below it, masked ones, and nothing pending. -/
theorem witness_IdleCycleResult :
    (({ aboutToTrigger ⟨9, 9, 9, 9⟩ with pendC := true } : Block referenceConfig).csvc false = true ∧
      (aboutToTrigger ⟨9, 9, 9, 9⟩).y.val + 1 = 20) ∧
    (({ showing 3 with pendD := true, pendC := true } : Block referenceConfig).dsvc false = true ∧
      ({ showing 3 with pendD := true, pendC := true } : Block referenceConfig).csvc false = true ∧
      (showing 3).y.val + 1 ≠ 20) ∧
    (({ quiet with pendD := true, pendC := true } : Block referenceConfig).dsvc false = false ∧
      ({ quiet with pendD := true, pendC := true } : Block referenceConfig).csvc false = false) ∧
    (showing 1).pendD = false ∧ (showing 1).pendC = false := by decide

theorem witness_CountServiceResult :
    (aboutToTrigger ⟨0, 0, 9, 9⟩).y.val + 1 = referenceConfig.trigger ∧ quiet.y.val + 1 ≠ referenceConfig.trigger := by decide

/-- A digit at 9 and one below, and a cycle that performs INC. -/
theorem witness_IncrementResult : (⟨0, 9, 9, 9⟩ : DigitFile).d3.val + 1 = 10 ∧ (⟨0, 9, 9, 9⟩ : DigitFile).d0.val + 1 ≠ 10 ∧
    ((aboutToTrigger ⟨0, 9, 9, 9⟩).serviceVectorOf 0x01#7).getLsbD 2 = true := by decide

theorem witness_TriggerServicesIncrementOnce :
    (demo quiet).blk.y.val = 0 ∧ 0 < (demo quiet).cfg.trigger ∧ 19 < (demo quiet).cfg.trigger := by decide

theorem witness_CounterCadence : (showing 0).gie = true ∧ (showing 0).cen = true ∧
    ({ quiet with ctrl := 0b101#3 } : Block referenceConfig).gie = true ∧
    ({ quiet with ctrl := 0b101#3 } : Block referenceConfig).cen = true ∧ quiet.d.value = 0 ∧ quiet.y.val = 0 := by decide

theorem witness_DisplayCursorPeriodicity : 0 < 4 ∧ (2 : Pos).val = ((showing 3).x.val + (4 - 1)) % 4 := by decide

theorem witness_ServiceVectorOfACycle : (0x7F#7).getLsbD 6 = true ∧ (0x3F#7).getLsbD 6 = false := by decide

theorem witness_PendingFlagUpdate : (0x43#7).getLsbD 6 = true ∧ (0x02#7).getLsbD 6 = false := by decide

theorem witness_CyclePerformsItsServiceVector : (0x03#7).getLsbD 6 = false := by decide

theorem witness_MaskedRequestIsHeld :
    (∀ w ∈ [0x01#7, 0x02#7, 0x00#7], w.getLsbD 6 = false ∧ w.getLsbD 2 = false) ∧
    ({ quiet with pendD := true, pendC := true } : Block referenceConfig).pendD = true ∧
    (quiet.gie && quiet.den) = false ∧
    ({ quiet with pendD := true, pendC := true } : Block referenceConfig).pendC = true ∧
    (quiet.gie && quiet.cen) = false := by decide

/-- With `GIE` already 1 and both sources masked, one request pending and one arriving with the write; and from
`CTRL = 0`. -/
theorem witness_EnablingReleasesPendingRequests : (0x03#7).getLsbD 6 = false ∧
    (0b111#3).getLsbD 0 = true ∧ (0b111#3).getLsbD 1 = true ∧ (0b111#3).getLsbD 2 = true ∧
    (({ quiet with ctrl := 0b001#3, pendD := true } : Block referenceConfig).gie = true ∧
      (({ quiet with ctrl := 0b001#3, pendD := true } : Block referenceConfig).gie &&
        ({ quiet with ctrl := 0b001#3, pendD := true } : Block referenceConfig).den) = false ∧
      (({ quiet with ctrl := 0b001#3, pendD := true } : Block referenceConfig).pendD || false) = true ∧
      (({ quiet with ctrl := 0b001#3, pendD := true } : Block referenceConfig).gie &&
        ({ quiet with ctrl := 0b001#3, pendD := true } : Block referenceConfig).cen) = false ∧
      (({ quiet with ctrl := 0b001#3, pendD := true } : Block referenceConfig).pendC || true) = true) ∧
    (quiet.gie && quiet.den) = false ∧ (quiet.gie && quiet.cen) = false := by decide

theorem witness_MergedEventIsLost : ({ quiet with pendD := true, pendC := true } : Block referenceConfig).pendD = true ∧
    ({ quiet with pendD := true, pendC := true } : Block referenceConfig).pendC = true := by decide

theorem witness_SameCycleDisplayShowsOldDigit :
    ((aboutToTrigger ⟨0, 9, 9, 9⟩).serviceVectorOf 0x03#7).getLsbD 0 = true ∧
    ((aboutToTrigger ⟨0, 9, 9, 9⟩).serviceVectorOf 0x03#7).getLsbD 2 = true := by decide

theorem witness_RegistersHoldWithoutTheirOwner : (0x00#7).getLsbD 6 = false ∧ (0x00#7).getLsbD 2 = false ∧
    (quiet.serviceVectorOf 0x00#7).getLsbD 0 = false ∧ (quiet.serviceVectorOf 0x00#7).getLsbD 1 = false ∧
    (quiet.serviceVectorOf 0x00#7).getLsbD 2 = false := by decide

/-- Two blocks that differ in every count register and agree on the display's, and two that differ in every display
register and agree on the counter's. -/
theorem witness_SourcesDoNotInterfere :
    (({ showing 1 with y := ⟨7, by decide⟩, pendC := true, rldC := true } : Block referenceConfig).ctrl = (showing 1).ctrl ∧
      ({ showing 1 with y := ⟨7, by decide⟩, pendC := true, rldC := true } : Block referenceConfig).pendD = (showing 1).pendD ∧
      ({ showing 1 with y := ⟨7, by decide⟩, pendC := true, rldC := true } : Block referenceConfig).d = (showing 1).d ∧
      ({ showing 1 with y := ⟨7, by decide⟩, pendC := true, rldC := true } : Block referenceConfig).x = (showing 1).x ∧
      ({ showing 1 with y := ⟨7, by decide⟩, pendC := true, rldC := true } : Block referenceConfig).selOut = (showing 1).selOut ∧
      ({ showing 1 with y := ⟨7, by decide⟩, pendC := true, rldC := true } : Block referenceConfig).segOut = (showing 1).segOut) ∧
    ((showing 2).ctrl = (showing 1).ctrl ∧ (showing 2).pendC = (showing 1).pendC ∧ (showing 2).d = (showing 1).d ∧
      (showing 2).y = (showing 1).y) := by decide

/-- The reset state is coherent, and its step answers a next state. -/
theorem witness_StepKeepsCoherent : ((demo quiet).withInput 0x02#7).blk.Coherent ∧
    afterwards (step ((demo quiet).withInput 0x02#7)) (fun t => t.blk.pendD) = true :=
  ⟨⟨.inl ⟨rfl, rfl, rfl, rfl⟩, by unfold SourcesCoherent; decide⟩, by decide⟩

theorem witness_ConfigurationNeverChanges : afterwards (cycleOf (showing 0) 0x03#7) (fun _ => true) = true ∧
    afterwards (exec .inc (demo quiet)) (fun _ => true) = true := by decide

theorem witness_AccumulatorWidth : 1 ≤ 5 ∧ referenceConfig.trigger ≤ 2 ^ 5 ∧
    (showing 1).packed = ({ showing 2 with x := 1 } : Block referenceConfig).packed := by decide

theorem witness_StimulusLinesAreTheseWords : 0x02#7 ∈ repeatLine 4 devLine := by decide

/-- Both timers armed, nothing pending, both events. -/
theorem witness_ContractKeepsTimersCoherent :
    (Arming.mk true true).Coherent quiet ∧ (Arming.mk true true).Permits quiet 0x03#7 := by
  unfold Arming.Coherent Arming.Permits; decide

/-- From reset with the display timer started, one display event keeps the contract. -/
theorem witness_ContractRulesOutMerges :
    (Arming.mk true false).Coherent (demo quiet).blk ∧ KeepsContract [0x02#7] (Arming.mk true false) (demo quiet) ∧
      KeepsContract [0x02#7] (Arming.mk true false) State.reset :=
  ⟨by unfold Arming.Coherent; decide, ⟨by unfold Arming.Permits; decide, fun _ _ => trivial⟩,
    ⟨by unfold Arming.Permits; decide, fun _ _ => trivial⟩⟩

end Sys2Proof.Tests
end

section
/-! The state of the block (10_state.md): its reset values, and the reload strobes of a cycle. -/

namespace Sys2Proof.Machine

/-! `S_RESET` and the services of a masked block. -/

section reset

variable (cfg : Config)

/-- Reset clears every digit, addressed by position (R37). -/
@[simp] theorem resetBlock_read (i : Pos) : (resetBlock cfg).d.read i = 0 := by
  match i with
  | 0 => rfl
  | 1 => rfl
  | 2 => rfl
  | 3 => rfl

@[simp] theorem resetBlock_value : (resetBlock cfg).d.value = 0 := rfl

/-- The initial mask has the global enable off (R38). -/
@[simp] theorem resetBlock_gie : (resetBlock cfg).gie = false := by
  simp [Block.gie, resetBlock]

end reset

section masked

variable {cfg : Config} {b : Block cfg}

/-- Without the global enable no display request is serviced (43_interrupt_synchronizer.md R141). -/
theorem dsvc_of_gie_false (h : b.gie = false) (dispEv : Bool) : b.dsvc dispEv = false := by
  simp [Block.dsvc, h]

/-- Without the global enable no count request is serviced (43_interrupt_synchronizer.md R141). -/
theorem csvc_of_gie_false (h : b.gie = false) (cntEv : Bool) : b.csvc cntEv = false := by
  simp [Block.csvc, h]

/-- Without the global enable no input word is serviced: the service vector is 0, with or without RST. -/
theorem serviceVectorOf_of_gie_false (h : b.gie = false) (w : InWord) : b.serviceVectorOf w = 0b000#3 := by
  unfold Block.serviceVectorOf
  split
  · rfl
  · simp [Block.serviceVector, dsvc_of_gie_false h, csvc_of_gie_false h]

end masked

/-- Settles O32: an RST cycle clears both strobes and has service vector 0; any other cycle writes each strobe with the
service decision that is its bit of the vector. -/
theorem reloadStrobeFollowsService : Obligations.ReloadStrobeFollowsService := by
  intro s w rest
  obtain ⟨bitD, bitC, -⟩ := serviceVectorOf_bits s.blk w
  obtain ⟨hrst, hstep⟩ | ⟨hrst, hstep⟩ := step_cons_cases s w rest
  · rw [bitD, bitC, hrst]
    exact ⟨_, hstep, rfl, rfl⟩
  · rw [bitD, bitC, hrst]
    exact ⟨_, hstep, clockEdge_rldD s.blk (strobesOf w), clockEdge_rldC s.blk (strobesOf w)⟩

/-- Settles O13: RST puts the block of its build's reset, whose digits are all 0, in place of any block. -/
theorem resetClearsTheDigits : Obligations.ResetClearsTheDigits :=
  ⟨fun ignored s => ⟨_, exec_rst s ignored, resetBlock_read s.cfg, resetBlock_value s.cfg⟩,
    resetBlock_read referenceConfig⟩

/-- Settles O14: the registers are fields of `resetBlock`, and with `GIE = 0` no word is serviced. -/
theorem resetValuesOfTheOtherRegisters : Obligations.ResetValuesOfTheOtherRegisters := by
  refine ⟨fun cfg => ?_, rfl, rfl⟩
  have hmasked : ∀ w, (resetBlock cfg).serviceVectorOf w = 0b000#3 :=
    serviceVectorOf_of_gie_false (resetBlock_gie cfg)
  exact ⟨rfl, rfl, rfl, rfl, rfl, rfl, rfl, rfl, rfl, hmasked⟩

end Sys2Proof.Machine
end

section
/-! The digit file as memory (20_memory.md): the display service that meets an INC, and the services after it. -/

namespace Sys2Proof.Machine

/-- INC adds 1 modulo 10000: the carries between the digits cancel, and the last one is discarded
(42_counter_engine.md R122 to R124). -/
theorem bcdInc_value (d : DigitFile) : (bcdInc d).value = (d.value + 1) % 10000 := by
  have hones := digitAdd_sum d.d3 true
  have htens := digitAdd_sum d.d2 (digitAdd d.d3 true).2
  have hhundreds := digitAdd_sum d.d1 (digitAdd d.d2 (digitAdd d.d3 true).2).2
  have hthousands := digitAdd_sum d.d0 (digitAdd d.d1 (digitAdd d.d2 (digitAdd d.d3 true).2).2).2
  have hold := value_lt d
  have hnew := value_lt (bcdInc d)
  simp only [bcdInc, DigitFile.value, Bool.toNat_true] at *
  omega

/-! An operation performed several times over. -/

/-- The first of `k + 1` executions of an operation that answers a next state. -/
theorem repeatExec_succ {i : Instr} {s t : State} (h : exec i s = .next t) (k : Nat) :
    repeatExec i (k + 1) s = repeatExec i k t := by
  rw [repeatExec, h]

/-- The cursor one up, then `k` up. -/
theorem pos_add_one_add (x : Pos) (k : Nat) : x + 1 + Fin.ofNat 4 k = x + Fin.ofNat 4 (k + 1) := by
  apply Fin.ext
  simp only [Fin.val_add, Fin.val_ofNat, Fin.val_one]
  omega

/-- The block after `k + 1` DISP_SVCs (41_display_multiplexer.md R102, R103): the cursor is `k + 1` up, and the outputs
show the position `k` up. -/
def Block.afterDispSvcs {cfg : Config} (b : Block cfg) (k : Nat) : Block cfg :=
  { b with
    x := b.x + Fin.ofNat 4 (k + 1)
    selOut := selRom (b.x + Fin.ofNat 4 k)
    segOut := cfg.glyph.get (b.d.read (b.x + Fin.ofNat 4 k)) }

theorem afterDispSvcs_zero {cfg : Config} (b : Block cfg) : b.afterDispSvcs 0 = b.dispSvcWrites b := by
  have hx : b.x + Fin.ofNat 4 0 = b.x := Fin.add_zero b.x
  simp only [Block.afterDispSvcs, hx]
  rfl

theorem afterDispSvcs_succ {cfg : Config} (b : Block cfg) (k : Nat) :
    b.afterDispSvcs (k + 1) = (b.dispSvcWrites b).afterDispSvcs k := by
  simp only [Block.afterDispSvcs, dispSvcWrites_x, dispSvcWrites_d, pos_add_one_add]
  rfl

/-- Repeated DISP_SVCs, from any state. -/
theorem repeatExec_dispSvc (k : Nat) (s : State) :
    repeatExec .dispSvc (k + 1) s = .next (s.withBlock (s.blk.afterDispSvcs k)) := by
  induction k generalizing s with
  | zero => rw [repeatExec_succ (exec_dispSvc s), afterDispSvcs_zero]; rfl
  | succ k ih => rw [repeatExec_succ (exec_dispSvc s), ih, afterDispSvcs_succ]; rfl

/-! A cycle whose service vector names both DISP_SVC and INC. -/

section sameCycle

variable {cfg : Config} {b : Block cfg} {w : InWord}

/-- Bit 0 of the service vector: the word is no RST, and its cycle services the display. -/
theorem dsvc_of_serviceVectorOf (h : (b.serviceVectorOf w).getLsbD 0 = true) :
    w.getLsbD 6 = false ∧ b.dsvc (dispEvField w) = true := by
  rw [(serviceVectorOf_bits b w).1] at h
  simpa [dispEvField] using h

/-- Bit 2 of the service vector: the cycle services the counter, with `Y` at the trigger (42_counter_engine.md R121). -/
theorem csvc_of_serviceVectorOf (h : (b.serviceVectorOf w).getLsbD 2 = true) :
    b.csvc (cntEvField w) = true ∧ b.y.val + 1 = cfg.trigger := by
  rw [(serviceVectorOf_bits b w).2.2] at h
  simp only [Bool.and_eq_true] at h
  obtain ⟨⟨-, hcsvc⟩, htrigger⟩ := h
  exact ⟨hcsvc, beq_iff_eq.mp htrigger⟩

/-- A cycle with an INC writes the incremented digits, whatever else it performs. -/
theorem clockEdge_d_of_inc {st : Strobes} (hcsvc : b.csvc st.cntEv = true) (htrigger : b.y.val + 1 = cfg.trigger) :
    (b.clockEdge st).d = bcdInc b.d := by
  rw [clockEdge_d, if_pos hcsvc, cntSvcWrites_d, if_pos htrigger]

end sameCycle

/-- Settles O39: the edge writes the outputs from the pre-edge digits and the cursor one up; three further DISP_SVCs
bring the cursor round to the old position, and the fourth shows it. -/
theorem sameCycleDisplayShowsOldDigit : Obligations.SameCycleDisplayShowsOldDigit := by
  intro s w rest hdisp hinc
  obtain ⟨hrst, hdsvc⟩ := dsvc_of_serviceVectorOf hdisp
  obtain ⟨hcsvc, htrigger⟩ := csvc_of_serviceVectorOf hinc
  have hstep : step { s with inputs := w :: rest } = .next (State.cycle { s with inputs := rest } (strobesOf w)) :=
    exec_decodeIn hrst _
  have hsel : (s.blk.clockEdge (strobesOf w)).selOut = selRom s.blk.x :=
    (clockEdge_selOut ..).trans (if_pos hdsvc)
  have hseg : (s.blk.clockEdge (strobesOf w)).segOut = s.cfg.glyph.get (s.blk.d.read s.blk.x) :=
    (clockEdge_segOut ..).trans (if_pos hdsvc)
  have hvalue : (s.blk.clockEdge (strobesOf w)).d.value = (s.blk.d.value + 1) % 10000 := by
    rw [clockEdge_d_of_inc hcsvc htrigger, bcdInc_value]
  have hround : (s.blk.clockEdge (strobesOf w)).x + Fin.ofNat 4 3 = s.blk.x := by
    rw [clockEdge_x, if_pos hdsvc, pos_add_one_add]
    exact Fin.add_zero s.blk.x
  exact ⟨_, _, hstep, repeatExec_dispSvc 3 _, hseg, hsel, hvalue,
    congrArg (fun p => s.cfg.glyph.get ((s.blk.clockEdge (strobesOf w)).d.read p)) hround, congrArg selRom hround⟩

end Sys2Proof.Machine
end

section
/-! The service vector of a cycle (30_encoding.md R74), from the requests and the enables as register bits
(43_interrupt_synchronizer.md R140, R141). -/

namespace Sys2Proof.Machine

section serviceVector

variable {cfg : Config} (b : Block cfg)

/-- The display's service decision, with `GIE` and `DEN` as bits of `CTRL`. -/
theorem dsvc_eq_ctrl_bits (dispEv : Bool) :
    b.dsvc dispEv = ((b.pendD || dispEv) && b.ctrl.getLsbD 0 && b.ctrl.getLsbD 1) := rfl

/-- The counter's service decision, with `GIE` and `CEN` as bits of `CTRL`. -/
theorem csvc_eq_ctrl_bits (cntEv : Bool) :
    b.csvc cntEv = ((b.pendC || cntEv) && b.ctrl.getLsbD 0 && b.ctrl.getLsbD 2) := rfl

theorem atTrigger_eq_decide : b.atTrigger = decide (b.y.val + 1 = cfg.trigger) := rfl

variable {w : InWord}

/-- An RST cycle services nothing. -/
theorem serviceVectorOf_of_rst (hrst : w.getLsbD 6 = true) : b.serviceVectorOf w = 0b000#3 :=
  if_pos hrst

/-- Without RST the service vector's bits are the two service decisions, and the counter's at the trigger. -/
theorem serviceVectorOf_bits_of_not_rst (hrst : w.getLsbD 6 = false) :
    (b.serviceVectorOf w).getLsbD 0 = b.dsvc (w.getLsbD 1) ∧
    (b.serviceVectorOf w).getLsbD 1 = b.csvc (w.getLsbD 0) ∧
    (b.serviceVectorOf w).getLsbD 2 = (b.csvc (w.getLsbD 0) && b.atTrigger) := by
  simpa only [hrst, Bool.not_false, Bool.true_and] using serviceVectorOf_bits b w

end serviceVector

/-- Settles O30: RST forces the vector to 0; in any other cycle bits 0 and 1 are the service decisions, and bit 2 is
bit 1 with the trigger test. -/
theorem serviceVectorOfACycle : Obligations.ServiceVectorOfACycle := by
  intro cfg b w
  refine ⟨serviceVectorOf_of_rst b, fun hrst => ?_⟩
  obtain ⟨bitD, bitC, bitInc⟩ := serviceVectorOf_bits_of_not_rst b hrst
  refine ⟨?_, ?_, ?_⟩
  · rw [bitD, dsvc_eq_ctrl_bits]
  · rw [bitC, csvc_eq_ctrl_bits]
  · rw [bitInc, bitC, atTrigger_eq_decide]

end Sys2Proof.Machine
end

section
/-! The display multiplexer (41_display_multiplexer.md): the select ROM, and what one DISP_SVC writes. -/

namespace Sys2Proof.Machine

/-- A row of the select ROM is all ones but for the single bit its position sets in the mask (R100). -/
theorem selRom_eq_allOnes_xor_twoPow (i : Pos) : selRom i = BitVec.allOnes 4 ^^^ BitVec.twoPow 4 i.val := rfl

/-- Line `j` of row `i` is low exactly for `j = i` (R100). -/
theorem selRom_getLsbD (i j : Pos) : (selRom i).getLsbD j.val = !decide (j = i) := by
  have hones : (BitVec.allOnes 4).getLsbD j.val = true :=
    BitVec.getLsbD_allOnes.trans (decide_eq_true j.isLt)
  have hmask : (BitVec.twoPow 4 i.val).getLsbD j.val = decide (j = i) := by
    rw [BitVec.getLsbD_twoPow, decide_eq_true i.isLt, Bool.true_and]
    simp only [Fin.ext_iff, eq_comm]
  rw [selRom_eq_allOnes_xor_twoPow, BitVec.getLsbD_xor, hones, hmask, Bool.true_xor]

/-- The cursor one up is one up modulo 4. -/
theorem pos_add_one_val (x : Pos) : (x + 1).val = (x.val + 1) % 4 := Fin.val_add x 1

/-- Settles O28: the row is `selRom`'s definition, and its bits are those of the all-ones word with one flipped. -/
theorem selectRomRows : Obligations.SelectRomRows :=
  fun i => ⟨rfl, selRom_getLsbD i⟩

/-- Settles O19: the block written is `dispSvcWrites` of the block before, and bit 0 of the service vector is the
display's service decision in a cycle without RST. -/
theorem displayServiceResult : Obligations.DisplayServiceResult := by
  refine ⟨fun s => ⟨s.blk.dispSvcWrites s.blk, exec_dispSvc s, rfl, pos_add_one_val s.blk.x⟩, fun s w => ?_⟩
  obtain ⟨bitD, -, -⟩ := serviceVectorOf_bits s.blk w
  rw [bitD, dsvc_eq_ctrl_bits]
  simp only [Bool.and_assoc]

end Sys2Proof.Machine
end

section
/-! The counter engine (42_counter_engine.md): the carry chain of INC, and what one CNT_SVC and a run of them write. -/

namespace Sys2Proof.Machine

/-! The carries of one INC (R122), each the carry out of a digit and so into the next. -/

/-- The carry into the tens. -/
def DigitFile.carryTens (d : DigitFile) : Bool := (digitAdd d.d3 true).2

/-- The carry into the hundreds. -/
def DigitFile.carryHundreds (d : DigitFile) : Bool := (digitAdd d.d2 d.carryTens).2

/-- The carry into the thousands. -/
def DigitFile.carryThousands (d : DigitFile) : Bool := (digitAdd d.d1 d.carryHundreds).2

/-- The carry out of the thousands, which goes nowhere (R124). -/
def DigitFile.carryLast (d : DigitFile) : Bool := (digitAdd d.d0 d.carryThousands).2

/-- The carry into each position; the ones always take one. -/
def DigitFile.carryInto (d : DigitFile) : Pos → Bool
  | 0 => d.carryThousands
  | 1 => d.carryHundreds
  | 2 => d.carryTens
  | 3 => true

/-- Every digit INC writes is that of one pass of the chain. -/
theorem bcdInc_read (d : DigitFile) (i : Pos) :
    (bcdInc d).read i = (digitAdd (d.read i) (d.carryInto i)).1 := by
  match i with
  | 0 => rfl
  | 1 => rfl
  | 2 => rfl
  | 3 => rfl

/-- The carry out of a position is the carry into the one before it, or the last one. -/
theorem digitAdd_carryInto (d : DigitFile) (i : Pos) :
    (digitAdd (d.read i) (d.carryInto i)).2 = if i = 0 then d.carryLast else d.carryInto (i - 1) := by
  match i with
  | 0 => rfl
  | 1 => rfl
  | 2 => rfl
  | 3 => rfl

/-- The two branches of a pass of the chain: at the sum 10 the digit is 0 and the carry 1, else the digit is the sum. -/
theorem digitAdd_branches (d : Digit) (c : Bool) :
    if d.val + c.toNat = 10 then (digitAdd d c).1.val = 0 ∧ (digitAdd d c).2.toNat = 1
    else (digitAdd d c).1.val = d.val + c.toNat ∧ (digitAdd d c).2.toNat = 0 := by
  have hsum := digitAdd_sum d c
  have hdigit := (digitAdd d c).1.isLt
  have hd := d.isLt
  have hc := Bool.toNat_le c
  split <;> omega

/-- The last carry is set when every digit is 9, for each digit passes a carry on only then. -/
theorem carryLast_iff (d : DigitFile) : d.carryLast = true ↔ d = ⟨9, 9, 9, 9⟩ := by
  obtain ⟨d0, d1, d2, d3⟩ := d
  simp only [DigitFile.carryLast, DigitFile.carryThousands, DigitFile.carryHundreds, DigitFile.carryTens,
    digitAdd_carry, Bool.and_eq_true, decide_eq_true_eq, true_and, DigitFile.mk.injEq, Fin.ext_iff]
  show ((d3.val = 9 ∧ d2.val = 9) ∧ d1.val = 9) ∧ d0.val = 9 ↔ d0.val = 9 ∧ d1.val = 9 ∧ d2.val = 9 ∧ d3.val = 9
  omega

/-! INC in the service vector (30_encoding.md R74, R77). -/

theorem mem_readingIf {hit : Bool} {i j : Instr} : j ∈ readingIf hit i ↔ hit = true ∧ j = i := by
  cases hit <;> simp [readingIf]

theorem rowInc_hits : ∀ w : SvWord, rowInc.hits w = (w.getLsbD 2 && w.getLsbD 1) := by decide

/-- A service vector is refused or names the operations of its rows; INC's row is among them when it matches. -/
theorem inc_mem_readingsSv_iff (w : SvWord) :
    (∃ l, readingsSv w = .ok l ∧ .inc ∈ l) ↔ rowInc.hits w = true := by
  unfold readingsSv
  split
  next hrefused =>
    have hmiss : rowInc.hits w = false := by
      simp only [Bool.and_eq_true, Bool.not_eq_true'] at hrefused
      obtain ⟨-, hcnt⟩ := hrefused
      rw [rowInc_hits, hcnt, Bool.and_false]
    simp [hmiss]
  next => simp [mem_readingIf]

section serviceVector

variable {cfg : Config} (b : Block cfg)

/-- Bit 2 is bit 1 with the trigger test (42_counter_engine.md R121). -/
theorem serviceVectorOf_bit_inc (w : InWord) : (b.serviceVectorOf w).getLsbD 2 =
    ((b.serviceVectorOf w).getLsbD 1 && decide (b.y.val + 1 = cfg.trigger)) := by
  obtain ⟨-, bitC, bitInc⟩ := serviceVectorOf_bits b w
  rw [bitC, bitInc, atTrigger_eq_decide]

/-- The vector of two event bits is that of the input word with these events alone. -/
theorem serviceVectorOf_packIn (dispEv cntEv : Bool) :
    b.serviceVectorOf (packIn 0#3 false dispEv cntEv) = b.serviceVector dispEv cntEv := by
  cases dispEv <;> cases cntEv <;> rfl

end serviceVector

/-- Settles O21: each digit and its carry out are one pass of the chain, of which the last carry needs four nines; INC's
row is its mask and match, and bit 2 of a cycle's vector is bit 1 with the trigger test. -/
theorem incrementResult : Obligations.IncrementResult := by
  refine ⟨fun s => ?_, fun w => ?_, fun s w hinc => ?_⟩
  · refine ⟨bcdInc s.blk.d, fun i => (s.blk.d.carryInto i).toNat, s.blk.d.carryLast.toNat, exec_inc s, rfl,
      fun i => ?_, ?_⟩
    · have hpass := digitAdd_branches (s.blk.d.read i) (s.blk.d.carryInto i)
      rw [← bcdInc_read, digitAdd_carryInto, apply_ite Bool.toNat] at hpass
      exact hpass
    · rw [Bool.toNat_eq_one, carryLast_iff]
  · rw [inc_mem_readingsSv_iff]
    exact beq_iff_eq
  · rw [serviceVectorOf_bit_inc] at hinc
    simpa only [Bool.and_eq_true, decide_eq_true_eq] using hinc

/-! CNT_SVC by itself (R120). -/

/-- CNT_SVC writes the accumulator and the digits alone. -/
theorem cntSvcWrites_frame {cfg : Config} (b : Block cfg) :
    b.cntSvcWrites b = { b with y := (b.cntSvcWrites b).y, d := (b.cntSvcWrites b).d } := by
  obtain ⟨-, h⟩ | ⟨_, h⟩ := cntSvcWrites_cases b b <;> rw [h]

/-- Settles O20: the block written is `cntSvcWrites` of the block before, register by register, and bit 1 of the
service vector is the counter's service decision in a cycle without RST. -/
theorem countServiceResult : Obligations.CountServiceResult := by
  refine ⟨fun s => ⟨s.blk.cntSvcWrites s.blk, exec_cntSvc s, cntSvcWrites_frame s.blk, fun htrigger => ?_,
    fun hbelow => ?_⟩, fun s w => ?_⟩
  · rw [cntSvcWrites_y_val, cntSvcWrites_d, if_pos htrigger, if_pos htrigger]
    exact ⟨rfl, _, exec_inc s, rfl⟩
  · rw [cntSvcWrites_y_val, cntSvcWrites_d, if_neg hbelow, if_neg hbelow]
    exact ⟨rfl, rfl⟩
  · obtain ⟨-, bitC, -⟩ := serviceVectorOf_bits s.blk w
    rw [bitC, csvc_eq_ctrl_bits]
    simp only [Bool.and_assoc]

/-! CNT_SVC several times over (R121). -/

section cntSvcs

variable {s : State}

theorem exec_cntSvc_of_trigger (h : s.blk.y.val + 1 = s.cfg.trigger) :
    exec .cntSvc s = .next (s.withBlock { s.blk with y := accZero s.cfg, d := bcdInc s.blk.d }) := by
  rw [exec_cntSvc, cntSvcWrites_of_trigger _ _ h]
  rfl

theorem exec_cntSvc_of_not_trigger (h : ¬ s.blk.y.val + 1 = s.cfg.trigger) :
    exec .cntSvc s = .next (s.withBlock { s.blk with y := ⟨s.blk.y.val + 1, s.blk.y_succ_lt h⟩ }) := by
  rw [exec_cntSvc, cntSvcWrites_of_not_trigger _ _ h]

/-- The last of `k + 1` executions of an operation whose first `k` answer a next state. -/
theorem repeatExec_succ_last {i : Instr} {k : Nat} {t : State} (h : repeatExec i k s = .next t) :
    repeatExec i (k + 1) s = exec i t := by
  induction k generalizing s with
  | zero =>
    cases h
    simp only [repeatExec]
    cases exec i t <;> rfl
  | succ k ih =>
    cases hexec : exec i s with
    | next u =>
      rw [repeatExec_succ hexec] at h ⊢
      exact ih h
    | fault r => simp [repeatExec, hexec] at h
    | refused r => simp [repeatExec, hexec] at h

/-- Services that do not reach the trigger change the accumulator alone. -/
theorem repeatExec_cntSvc_below (hzero : s.blk.y.val = 0) (k : Nat) (h : k < s.cfg.trigger) :
    repeatExec .cntSvc k s = .next (s.withBlock { s.blk with y := ⟨k, h⟩ }) := by
  induction k with
  | zero =>
    have hy : (⟨0, h⟩ : Fin s.cfg.trigger) = s.blk.y := Fin.ext hzero.symm
    rw [hy]
    rfl
  | succ k ih =>
    rw [repeatExec_succ_last (ih (Nat.lt_of_succ_lt h))]
    exact exec_cntSvc_of_not_trigger h.ne

/-- The services up to the trigger are one INC, and leave the accumulator where it was, at 0. -/
theorem repeatExec_cntSvc_trigger (hzero : s.blk.y.val = 0) :
    repeatExec .cntSvc s.cfg.trigger s = exec .inc s := by
  obtain ⟨k, hk⟩ := Nat.exists_eq_add_one.mpr s.cfg.trigger_pos
  have hbelow : k < s.cfg.trigger := hk ▸ Nat.lt_succ_self k
  have hy : accZero s.cfg = s.blk.y := Fin.ext hzero.symm
  calc repeatExec .cntSvc s.cfg.trigger s
      = repeatExec .cntSvc (k + 1) s := by rw [hk]
    _ = exec .cntSvc (s.withBlock { s.blk with y := ⟨k, hbelow⟩ }) :=
      repeatExec_succ_last (repeatExec_cntSvc_below hzero k hbelow)
    _ = .next (s.withBlock { s.blk with y := accZero s.cfg, d := bcdInc s.blk.d }) :=
      exec_cntSvc_of_trigger hk.symm
    _ = exec .inc s := by rw [hy]; rfl

end cntSvcs

/-- Settles O24: by induction on the services below the trigger, and one service more at it. -/
theorem triggerServicesIncrementOnce : Obligations.TriggerServicesIncrementOnce := by
  refine ⟨fun s dispEv cntEv => ?_, fun s hzero => ⟨repeatExec_cntSvc_below hzero, repeatExec_cntSvc_trigger hzero⟩⟩
  rw [← serviceVectorOf_packIn]
  exact serviceVectorOf_bit_inc s.blk _

end Sys2Proof.Machine
end

section
/-! The interrupt synchronizer (43_interrupt_synchronizer.md): the rows of the opcode table an input word matches, the
two halves of a clock edge, and the cycle of each operation of format IN. -/

namespace Sys2Proof.Machine

/-! The rows an input word matches (30_encoding.md R72, R75). -/

section readings

/-- A word matches a row when its bits under the mask are the match. -/
theorem hits_iff {n : Nat} (r : OpcodeRow n) (w : BitVec n) : r.hits w = true ↔ w &&& r.mask = r.value :=
  beq_iff_eq

variable (w : InWord)

/-- The readings of a word are those of the rows it matches. -/
theorem mem_readingsIn {i : Instr} : i ∈ readingsIn w ↔
    rowRst.hits w = true ∧ i = readRst w ∨ rowCtrlWr.hits w = true ∧ i = readCtrlWr w ∨
    rowDispEv.hits w = true ∧ i = readDispEv w ∨ rowCntEv.hits w = true ∧ i = readCntEv w ∨
    rowIdle.hits w = true ∧ i = readIdle w := by
  simp only [readingsIn, List.mem_append, mem_readingIf, or_assoc]

theorem rst_mem_readingsIn_iff : (∃ l, .rst l ∈ readingsIn w) ↔ rowRst.hits w = true := by
  simp [mem_readingsIn, readRst, readCtrlWr, readDispEv, readCntEv, readIdle]

theorem ctrlWr_mem_readingsIn_iff : (∃ c d e, .ctrlWr c d e ∈ readingsIn w) ↔ rowCtrlWr.hits w = true := by
  simp [mem_readingsIn, readRst, readCtrlWr, readDispEv, readCntEv, readIdle]

theorem dispEv_mem_readingsIn_iff : (∃ c d e, .dispEv c d e ∈ readingsIn w) ↔ rowDispEv.hits w = true := by
  simp [mem_readingsIn, readRst, readCtrlWr, readDispEv, readCntEv, readIdle]

theorem cntEv_mem_readingsIn_iff : (∃ c d e, .cntEv c d e ∈ readingsIn w) ↔ rowCntEv.hits w = true := by
  simp [mem_readingsIn, readRst, readCtrlWr, readDispEv, readCntEv, readIdle]

theorem idle_mem_readingsIn_iff : (∃ c, .idle c ∈ readingsIn w) ↔ rowIdle.hits w = true := by
  simp [mem_readingsIn, readRst, readCtrlWr, readDispEv, readCntEv, readIdle]

end readings

/-! A cycle with RST (R144). -/

section rstCycle

variable {w : InWord}

/-- The pattern of the RST row is bit 6. -/
theorem rst_bit_of_mask (h : w &&& 0x40#7 = 0x40#7) : w.getLsbD 6 = true :=
  (rowRst_hits w).symm.trans ((hits_iff rowRst w).mpr h)

/-- Whatever bits are set beside bit 6, the word has it set. -/
theorem rst_bit_or (w v : InWord) (h : v.getLsbD 6 = true) : (w ||| v).getLsbD 6 = true := by
  rw [BitVec.getLsbD_or, h, Bool.or_true]

/-- A step on an RST word puts `S_RESET` in place of any block. -/
theorem step_cons_of_rst (h : w.getLsbD 6 = true) (s : State) (rest : List InWord) :
    step { s with inputs := w :: rest } = .next { s with inputs := rest, blk := resetBlock s.cfg } := by
  rw [step_cons, decodeIn_of_rst h]
  exact exec_rst _ _

end rstCycle

/-! A clock edge without RST, seen from each source (R149). -/

section clockEdge

variable {cfg : Config} (b : Block cfg) (st : Strobes)

/-- The display half of a clock edge is that of the pseudocode: DISP_SVC's writes if the request is serviced. -/
theorem clockEdge_displaySourceCycle : DisplaySourceCycle st.dispEv b (b.clockEdge st) := by
  refine ⟨clockEdge_pendD b st, clockEdge_rldD b st, fun (hsvc : b.dsvc st.dispEv = true) => ?_,
    fun (hsvc : b.dsvc st.dispEv = false) => ?_⟩
  · rw [clockEdge_selOut, clockEdge_segOut, clockEdge_x, hsvc]
    exact ⟨rfl, rfl, pos_add_one_val b.x⟩
  · rw [clockEdge_selOut, clockEdge_segOut, clockEdge_x, hsvc]
    exact ⟨rfl, rfl, rfl⟩

/-- The count half of a clock edge is that of the pseudocode: CNT_SVC's writes if the request is serviced, which at the
trigger are those of INC. -/
theorem clockEdge_countSourceCycle : CountSourceCycle st.cntEv b (b.clockEdge st) := by
  refine ⟨clockEdge_pendC b st, clockEdge_rldC b st, fun (hsvc : b.csvc st.cntEv = true) htrigger => ?_,
    fun (hsvc : b.csvc st.cntEv = true) hbelow => ?_, fun (hsvc : b.csvc st.cntEv = false) => ?_⟩
  · rw [clockEdge_y, clockEdge_d_of_inc hsvc htrigger, if_pos hsvc, cntSvcWrites_y_val, if_pos htrigger]
    exact ⟨rfl, bcdInc_value b.d⟩
  · rw [clockEdge_y, clockEdge_d, if_pos hsvc, if_pos hsvc, cntSvcWrites_y_val, cntSvcWrites_d, if_neg hbelow,
      if_neg hbelow]
    exact ⟨rfl, rfl⟩
  · rw [clockEdge_y, clockEdge_d, hsvc]
    exact ⟨rfl, rfl⟩

/-- A display event is a request whatever is pending, so the enables alone decide its service. -/
theorem dsvc_of_event : b.dsvc true = (b.gie && b.den) := by
  rw [Block.dsvc, Block.reqD, Bool.or_true, Bool.true_and]

/-- A count event is a request whatever is pending, so the enables alone decide its service. -/
theorem csvc_of_event : b.csvc true = (b.gie && b.cen) := by
  rw [Block.csvc, Block.reqC, Bool.or_true, Bool.true_and]

variable {b st}

/-- A display event is pending afterwards exactly if the enables hold it back. -/
theorem clockEdge_pendD_of_event (h : st.dispEv = true) : (b.clockEdge st).pendD = !(b.gie && b.den) := by
  rw [clockEdge_pendD, h, dsvc_of_event, Block.reqD, Bool.or_true, Bool.true_and]

/-- A count event is pending afterwards exactly if the enables hold it back. -/
theorem clockEdge_pendC_of_event (h : st.cntEv = true) : (b.clockEdge st).pendC = !(b.gie && b.cen) := by
  rw [clockEdge_pendC, h, csvc_of_event, Block.reqC, Bool.or_true, Bool.true_and]

/-- Without a service and a control write an edge performs the synchronizer's writes alone. -/
theorem clockEdge_of_no_service (hdsvc : b.dsvc st.dispEv = false) (hcsvc : b.csvc st.cntEv = false)
    (hwe : st.ctrlWe = false) : b.clockEdge st = b.syncWrites st b := by
  simp only [Block.clockEdge, hdsvc, hcsvc, hwe, performIf_false]

/-- Without a request and a control write an edge changes the reload strobes alone, to 0. -/
theorem clockEdge_of_no_request (hreqD : b.reqD st.dispEv = false) (hreqC : b.reqC st.cntEv = false)
    (hwe : st.ctrlWe = false) : b.clockEdge st = { b with rldD := false, rldC := false } := by
  have hdsvc : b.dsvc st.dispEv = false := by simp [Block.dsvc, hreqD]
  have hcsvc : b.csvc st.cntEv = false := by simp [Block.csvc, hreqC]
  obtain ⟨hpendD, -⟩ := Bool.or_eq_false_iff.mp hreqD
  obtain ⟨hpendC, -⟩ := Bool.or_eq_false_iff.mp hreqC
  rw [clockEdge_of_no_service hdsvc hcsvc hwe]
  simp only [Block.syncWrites, hdsvc, hcsvc, hreqD, hreqC, hpendD, hpendC, Bool.false_and]

end clockEdge

/-- Settles O10: an RST word gives the reset block; any other the clock edge of its strobes, with its two halves and the
control write. -/
theorem stepIsTheCycleFunction : Obligations.StepIsTheCycleFunction := by
  intro s w rest
  obtain ⟨hrst, hstep⟩ | ⟨hrst, hstep⟩ := step_cons_cases s w rest
  · exact ⟨_, hstep, fun _ => rfl, fun hclear => nomatch hrst.symm.trans hclear⟩
  · exact ⟨_, hstep, fun hset => (nomatch hset.symm.trans hrst), fun _ =>
      ⟨clockEdge_displaySourceCycle s.blk (strobesOf w), clockEdge_countSourceCycle s.blk (strobesOf w),
        clockEdge_ctrl s.blk (strobesOf w)⟩⟩

/-- Settles O15: the cycle is the clock edge with the write strobe set, whose two halves read the block before it; the
enables after it are the bits of the field. -/
theorem ctrlWriteCycleResult : Obligations.CtrlWriteCycleResult := by
  refine ⟨fun wdata dispEv cntEv s => ?_, fun w => (ctrlWr_mem_readingsIn_iff w).trans (hits_iff rowCtrlWr w)⟩
  have hctrl : (s.blk.clockEdge ⟨true, wdata, dispEv, cntEv⟩).ctrl = wdata := clockEdge_ctrl ..
  refine ⟨_, exec_ctrlWr s wdata dispEv cntEv, hctrl, ?_, ?_, ?_, clockEdge_displaySourceCycle ..,
    clockEdge_countSourceCycle ..⟩
  · rw [Block.gie, hctrl]
  · rw [Block.den, hctrl]
  · rw [Block.cen, hctrl]

/-- Settles O16: the cycle is the clock edge with the display event set, which is a request the enables gate; a word
with bit 6 set as well is an RST. -/
theorem displayEventCycleResult : Obligations.DisplayEventCycleResult := by
  refine ⟨fun wdata ctrlWe cntEv s => ⟨_, exec_dispEv s wdata ctrlWe cntEv, clockEdge_displaySourceCycle ..,
      clockEdge_countSourceCycle .., clockEdge_ctrl .., clockEdge_pendD_of_event rfl, ?_⟩,
    fun s w rest => ⟨_, step_cons_of_rst (rst_bit_or w _ rfl) s rest, rfl⟩,
    fun w => (dispEv_mem_readingsIn_iff w).trans (hits_iff rowDispEv w)⟩
  rw [clockEdge_rldD, dsvc_of_event]

/-- Settles O17: the cycle is the clock edge with the count event set, which is a request the enables gate; a word
with bit 6 set as well is an RST. -/
theorem countEventCycleResult : Obligations.CountEventCycleResult := by
  refine ⟨fun wdata ctrlWe dispEv s => ⟨_, exec_cntEv s wdata ctrlWe dispEv, clockEdge_displaySourceCycle ..,
      clockEdge_countSourceCycle .., clockEdge_ctrl .., clockEdge_pendC_of_event rfl, ?_⟩,
    fun s w rest => ⟨_, step_cons_of_rst (rst_bit_or w _ rfl) s rest, rfl⟩,
    fun w => (cntEv_mem_readingsIn_iff w).trans (hits_iff rowCntEv w)⟩
  rw [clockEdge_rldC, csvc_of_event]

/-- Settles O18: the cycle is the clock edge with no strobe set; with nothing pending it has no request. -/
theorem idleCycleResult : Obligations.IdleCycleResult := by
  refine ⟨fun wdata s => ⟨_, exec_idle s wdata, clockEdge_displaySourceCycle .., clockEdge_countSourceCycle ..,
      clockEdge_ctrl .., fun hpendD hpendC => ?_⟩,
    fun w => (idle_mem_readingsIn_iff w).trans (hits_iff rowIdle w)⟩
  have hreqD : s.blk.reqD false = false := (Bool.or_false _).trans hpendD
  have hreqC : s.blk.reqC false = false := (Bool.or_false _).trans hpendC
  exact clockEdge_of_no_request hreqD hreqC rfl

/-- Settles O31: an RST cycle clears both flags; any other writes each with the request that is not serviced, and the
service decision is the source's bit of the vector. -/
theorem pendingFlagUpdate : Obligations.PendingFlagUpdate := by
  intro s w rest
  obtain ⟨hrst, hstep⟩ | ⟨hrst, hstep⟩ := step_cons_cases s w rest
  · exact ⟨_, hstep, fun _ => ⟨rfl, rfl⟩, fun hclear => nomatch hrst.symm.trans hclear⟩
  · obtain ⟨bitD, bitC, -⟩ := serviceVectorOf_bits_of_not_rst s.blk hrst
    rw [bitD, bitC]
    exact ⟨_, hstep, fun hset => (nomatch hset.symm.trans hrst), fun _ =>
      ⟨clockEdge_pendD s.blk (strobesOf w), clockEdge_pendC s.blk (strobesOf w)⟩⟩

/-- Settles O11: the reset block is the one written out; the row's pattern is bit 6, which forces the service vector to
0. -/
theorem resetFromAnyState : Obligations.ResetFromAnyState :=
  ⟨fun ignored s => exec_rst s ignored, fun w => (rst_mem_readingsIn_iff w).trans (hits_iff rowRst w),
    fun s _ hmask => serviceVectorOf_of_rst s.blk (rst_bit_of_mask hmask)⟩

end Sys2Proof.Machine
end

section
/-! Reset and hazards (70_reset_and_hazards.md): RST dominates its cycle (R191). -/

namespace Sys2Proof.Machine

/-- Settles O12: the step on an RST word replaces the block by `S_RESET` and services nothing; that no event is latched
and no write taken is what the reset values of the flags and of `CTRL` say. -/
theorem resetWordDominatesItsCycle : Obligations.ResetWordDominatesItsCycle := by
  intro s w rest hrst
  obtain ⟨hreset, -⟩ := resetValuesOfTheOtherRegisters
  obtain ⟨-, -, hpendD, hpendC, hctrl, -⟩ := hreset s.cfg
  exact ⟨step_cons_of_rst hrst s rest, serviceVectorOf_of_rst s.blk hrst, hpendD, hpendC, hctrl⟩

end Sys2Proof.Machine
end

section
/-! The encoding (30_encoding.md): the words the encoder packs, the row the decoder answers, the readings of a word, the
stimulus lines, and the service vectors that occur. -/

namespace Sys2Proof.Machine

/-! The words of format IN are those the encoder packs (R71, R73, R75). -/

section pack

variable (wdata : CtrlWord) (ctrlWe dispEv cntEv : Bool)

theorem packIn_rstBit : (packIn wdata ctrlWe dispEv cntEv).getLsbD 6 = false := by
  revert wdata ctrlWe dispEv cntEv; decide

@[simp] theorem wdataField_packIn : wdataField (packIn wdata ctrlWe dispEv cntEv) = wdata := by
  revert wdata ctrlWe dispEv cntEv; decide

@[simp] theorem ctrlWeField_packIn : ctrlWeField (packIn wdata ctrlWe dispEv cntEv) = ctrlWe := by
  revert wdata ctrlWe dispEv cntEv; decide

@[simp] theorem dispEvField_packIn : dispEvField (packIn wdata ctrlWe dispEv cntEv) = dispEv := by
  revert wdata ctrlWe dispEv cntEv; decide

@[simp] theorem cntEvField_packIn : cntEvField (packIn wdata ctrlWe dispEv cntEv) = cntEv := by
  revert wdata ctrlWe dispEv cntEv; decide

/-- The strobes of a packed word are those it was packed from. -/
@[simp] theorem strobesOf_packIn :
    strobesOf (packIn wdata ctrlWe dispEv cntEv) = ⟨ctrlWe, wdata, dispEv, cntEv⟩ := by
  simp [strobesOf]

/-- A word without RST is packed from its fields: none of its bits is lost. -/
theorem packIn_fields : ∀ {w : InWord}, w.getLsbD 6 = false →
    packIn (wdataField w) (ctrlWeField w) (dispEvField w) (cntEvField w) = w := by decide

theorem packIn_eq_iff {w : InWord} : packIn wdata ctrlWe dispEv cntEv = w ↔
    w.getLsbD 6 = false ∧ wdata = wdataField w ∧ ctrlWe = ctrlWeField w ∧ dispEv = dispEvField w ∧
      cntEv = cntEvField w := by
  constructor
  · rintro rfl
    exact ⟨packIn_rstBit .., by simp⟩
  · rintro ⟨hrst, rfl, rfl, rfl, rfl⟩
    exact packIn_fields hrst

theorem packRst_rstBit : ∀ ignored : BitVec 6, (packRst ignored).getLsbD 6 = true := by decide

@[simp] theorem ignoredField_packRst : ∀ ignored : BitVec 6, ignoredField (packRst ignored) = ignored := by decide

/-- An RST word is packed from its ignored bits. -/
theorem packRst_ignoredField : ∀ {w : InWord}, w.getLsbD 6 = true → packRst (ignoredField w) = w := by decide

theorem packRst_eq_iff {ignored : BitVec 6} {w : InWord} :
    packRst ignored = w ↔ w.getLsbD 6 = true ∧ ignored = ignoredField w := by
  constructor
  · rintro rfl
    exact ⟨packRst_rstBit _, (ignoredField_packRst _).symm⟩
  · rintro ⟨hrst, rfl⟩
    exact packRst_ignoredField hrst

/-- Every input word is an RST word or one packed from the five fields. -/
theorem inWord_cases (w : InWord) :
    (∃ ignored, w = packRst ignored) ∨ ∃ wdata ctrlWe dispEv cntEv, w = packIn wdata ctrlWe dispEv cntEv := by
  cases hrst : w.getLsbD 6 with
  | true => exact .inl ⟨_, (packRst_ignoredField hrst).symm⟩
  | false => exact .inr ⟨_, _, _, _, (packIn_fields hrst).symm⟩

end pack

/-! The row the decoder answers (R72, R75). -/

section decodeIn

theorem decodeIn_packRst (ignored : BitVec 6) : decodeIn (packRst ignored) = .rst ignored := by
  rw [decodeIn_of_rst (packRst_rstBit ignored), readRst, ignoredField_packRst]

/-- Without RST the decoder answers the row of the first strobe set, and IDLE if there is none. -/
theorem decodeIn_of_not_rst {w : InWord} (hrst : w.getLsbD 6 = false) : decodeIn w =
    if ctrlWeField w then readCtrlWr w else if dispEvField w then readDispEv w
    else if cntEvField w then readCntEv w else readIdle w := by
  rw [decodeIn, rowRst_hits, rowCtrlWr_hits, rowDispEv_hits, rowCntEv_hits, hrst]
  rfl

theorem decodeIn_packIn (wdata : CtrlWord) (ctrlWe dispEv cntEv : Bool) :
    decodeIn (packIn wdata ctrlWe dispEv cntEv) =
      if ctrlWe then .ctrlWr wdata dispEv cntEv else if dispEv then .dispEv wdata ctrlWe cntEv
      else if cntEv then .cntEv wdata ctrlWe dispEv else .idle wdata := by
  simp only [decodeIn_of_not_rst (packIn_rstBit ..), readCtrlWr, readDispEv, readCntEv, readIdle, wdataField_packIn,
    ctrlWeField_packIn, dispEvField_packIn, cntEvField_packIn]

/-- The decoder's answer is an input operation, the well-formed spelling of the word, and encodes back to it. -/
theorem decodeIn_spec (w : InWord) :
    (decodeIn w).isInput = true ∧ (decodeIn w).WellFormed = true ∧ encode (decodeIn w) = .inWord w := by
  obtain ⟨ignored, rfl⟩ | ⟨wdata, ctrlWe, dispEv, cntEv, rfl⟩ := inWord_cases w
  · rw [decodeIn_packRst]
    exact ⟨rfl, rfl, rfl⟩
  · rw [decodeIn_packIn]
    match ctrlWe, dispEv, cntEv with
    | true, _, _ => exact ⟨rfl, rfl, rfl⟩
    | false, true, _ => exact ⟨rfl, rfl, rfl⟩
    | false, false, true => exact ⟨rfl, rfl, rfl⟩
    | false, false, false => exact ⟨rfl, rfl, rfl⟩

/-- A packed word is, as an operation, the clock cycle of the strobes it was packed from. -/
theorem exec_decodeIn_packIn (wdata : CtrlWord) (ctrlWe dispEv cntEv : Bool) (s : State) :
    exec (decodeIn (packIn wdata ctrlWe dispEv cntEv)) s = .next (s.cycle ⟨ctrlWe, wdata, dispEv, cntEv⟩) := by
  rw [exec_decodeIn (packIn_rstBit ..), strobesOf_packIn]

/-- An RST word is, as an operation, the reset of the block. -/
theorem exec_decodeIn_of_rst {w : InWord} (hrst : w.getLsbD 6 = true) (s : State) :
    exec (decodeIn w) s = .next (s.withBlock (resetBlock s.cfg)) := by
  rw [decodeIn_of_rst hrst]
  exact exec_rst s _

end decodeIn

/-- Settles O1, by the operations: the word of a well-formed one has the strobes that make its own row the first
match. -/
theorem decodeOfEncode : Obligations.DecodeOfEncode := by
  intro i hwf
  cases i with
  | rst ignored => simp [encode, decode, decodeIn_packRst]
  | ctrlWr wdata dispEv cntEv => simp [encode, decode, decodeIn_packIn]
  | dispEv wdata ctrlWe cntEv =>
    obtain rfl : ctrlWe = false := by simpa [Instr.WellFormed] using hwf
    simp [encode, decode, decodeIn_packIn]
  | cntEv wdata ctrlWe dispEv =>
    obtain ⟨rfl, rfl⟩ : ctrlWe = false ∧ dispEv = false := by simpa [Instr.WellFormed] using hwf
    simp [encode, decode, decodeIn_packIn]
  | idle wdata => simp [encode, decode, decodeIn_packIn]
  | dispSvc => rfl
  | cntSvc => rfl
  | inc => rfl

/-! The readings of a word (R72). -/

section readings

variable {w : InWord}

/-- An operation reads from a word in its own row alone, so it does when the word has the row's bits and the operation's
operands; and these are the bits of the operation's word. -/
theorem mem_readingsIn_iff_encode (i : Instr) : i ∈ readingsIn w ↔ encode i = .inWord w := by
  rw [mem_readingsIn, rowRst_hits, rowCtrlWr_hits, rowDispEv_hits, rowCntEv_hits, rowIdle_hits]
  simp only [readRst, readCtrlWr, readDispEv, readCntEv, readIdle, Bool.and_eq_true, Bool.not_eq_true']
  cases i with
  | rst ignored =>
    simp only [encode, CodeWord.inWord.injEq, packRst_eq_iff, Instr.rst.injEq, reduceCtorEq, and_false, or_false]
  | ctrlWr wdata dispEv cntEv =>
    simp only [encode, CodeWord.inWord.injEq, packIn_eq_iff, Instr.ctrlWr.injEq, reduceCtorEq, and_false, or_false,
      false_or, ctrlWeField]
    tauto
  | dispEv wdata ctrlWe cntEv =>
    simp only [encode, CodeWord.inWord.injEq, packIn_eq_iff, Instr.dispEv.injEq, reduceCtorEq, and_false, or_false,
      false_or, dispEvField]
    tauto
  | cntEv wdata ctrlWe dispEv =>
    simp only [encode, CodeWord.inWord.injEq, packIn_eq_iff, Instr.cntEv.injEq, reduceCtorEq, and_false, or_false,
      false_or, cntEvField]
    tauto
  | idle wdata =>
    simp only [encode, CodeWord.inWord.injEq, packIn_eq_iff, Instr.idle.injEq, reduceCtorEq, and_false, false_or,
      ctrlWeField, dispEvField, cntEvField]
    tauto
  | dispSvc => simp only [encode, reduceCtorEq, and_false, or_false]
  | cntSvc => simp only [encode, reduceCtorEq, and_false, or_false]
  | inc => simp only [encode, reduceCtorEq, and_false, or_false]

/-- The operations of one word have one effect: the reset, or the cycle of the word's strobes. -/
theorem exec_eq_of_encode {i : Instr} (h : encode i = .inWord w) (s : State) : exec i s = exec (decodeIn w) s := by
  cases i with
  | rst ignored => cases h; rw [decodeIn_packRst]
  | ctrlWr wdata dispEv cntEv => cases h; rw [exec_decodeIn_packIn, exec_ctrlWr]
  | dispEv wdata ctrlWe cntEv => cases h; rw [exec_decodeIn_packIn, exec_dispEv]
  | cntEv wdata ctrlWe dispEv => cases h; rw [exec_decodeIn_packIn, exec_cntEv]
  | idle wdata => cases h; rw [exec_decodeIn_packIn, exec_idle]
  | dispSvc => cases h
  | cntSvc => cases h
  | inc => cases h

end readings

/-- Settles O2, by the operations. -/
theorem readingsAreTheOperationsOfTheWord : Obligations.ReadingsAreTheOperationsOfTheWord :=
  fun _ i => mem_readingsIn_iff_encode i

/-- Without the write strobe an edge does not read `CTRL_WDATA`. -/
theorem clockEdge_wdata_irrel {cfg : Config} (b : Block cfg) (wdata wdata' : CtrlWord) (dispEv cntEv : Bool) :
    b.clockEdge ⟨false, wdata, dispEv, cntEv⟩ = b.clockEdge ⟨false, wdata', dispEv, cntEv⟩ := rfl

/-- Settles O3: a word is an RST word, whose effect is the reset, or a packed one, whose effect is the cycle of its
strobes, which without `CTRL_WE` ignores the write data. -/
theorem everyInputWordIsLegal : Obligations.EveryInputWordIsLegal := by
  intro w
  obtain ⟨hinput, hwf, hencode⟩ := decodeIn_spec w
  refine ⟨⟨decodeIn w, rfl, hinput, hwf, hencode, fun s => ?_⟩, fun v s hw hv => ?_,
    fun v s hrst hwe hve hdisp hcnt => ?_⟩
  · obtain ⟨-, h⟩ | ⟨-, h⟩ := exec_decodeIn_cases w s
    · exact ⟨_, h⟩
    · exact ⟨_, h⟩
  · rw [exec_decodeIn_of_rst hw, exec_decodeIn_of_rst hv]
  · cases hw : w.getLsbD 6 with
    | true => rw [exec_decodeIn_of_rst hw, exec_decodeIn_of_rst (hrst ▸ hw)]
    | false =>
      rw [exec_decodeIn hw, exec_decodeIn (hrst ▸ hw)]
      simp only [strobesOf, ctrlWeField, dispEvField, cntEvField, hwe, hve, hdisp, hcnt, cycle_eq_withBlock]
      rw [clockEdge_wdata_irrel]

/-- Settles O5: the rows' patterns as bits, and every reading encodes to the word. -/
theorem readingsOfAWordAgree : Obligations.ReadingsOfAWordAgree := by
  intro w
  refine ⟨?_, ?_, ?_, ?_, ?_, fun i hi s => exec_eq_of_encode ((mem_readingsIn_iff_encode i).mp hi) s⟩
  · rw [rst_mem_readingsIn_iff, rowRst_hits]
  · rw [ctrlWr_mem_readingsIn_iff, rowCtrlWr_hits, Bool.and_eq_true, Bool.not_eq_true']
  · rw [dispEv_mem_readingsIn_iff, rowDispEv_hits, Bool.and_eq_true, Bool.not_eq_true']
  · rw [cntEv_mem_readingsIn_iff, rowCntEv_hits, Bool.and_eq_true, Bool.not_eq_true']
  · rw [idle_mem_readingsIn_iff, rowIdle_hits]
    simp only [Bool.and_eq_true, Bool.not_eq_true', and_assoc]

/-- Settles O4: the words as the decoder evaluates them. -/
theorem specWordsDecode : Obligations.SpecWordsDecode := by
  unfold Obligations.SpecWordsDecode
  decide

/-! The stimulus lines (R78, R79). -/

theorem ctrlLine_toNat : ∀ c d g : Bool,
    (ctrlLine c d g).toNat = 4 + 32 * c.toNat + 16 * d.toNat + 8 * g.toNat := by decide

/-- A write line joined with both events is the packed word of the write with both events. -/
theorem joinLines_ctrlLine_devCevLine : ∀ c d g : Bool, joinLines (ctrlLine c d g) devCevLine =
    packIn (BitVec.ofBool c ++ BitVec.ofBool d ++ BitVec.ofBool g) true true true := by decide

/-- Settles O7: the lines evaluate to the words listed, repetition is `List.replicate`, and the joined word has the
write strobe, which decides its row. -/
theorem stimulusLinesAreTheseWords : Obligations.StimulusLinesAreTheseWords := by
  refine ⟨⟨rfl, rfl, rfl, rfl, rfl⟩, ctrlLine_toNat, fun _ _ => rfl, rfl, ⟨rfl, rfl, rfl⟩,
    fun n w => ⟨List.length_replicate, fun v => List.eq_of_mem_replicate⟩, ⟨fun _ => rfl, rfl, fun _ => rfl⟩,
    fun c d g => ?_⟩
  rw [joinLines_ctrlLine_devCevLine, decodeIn_packIn, if_pos rfl]

/-! The service vectors that occur (R77). -/

/-- Bit 2 of a cycle's vector needs bit 1, so a vector with bit 2 alone of the two is none. -/
theorem serviceVectorOf_ne {cfg : Config} (b : Block cfg) (w : InWord) {v : SvWord} (hinc : v.getLsbD 2 = true)
    (hcnt : v.getLsbD 1 = false) : b.serviceVectorOf w ≠ v := by
  rintro rfl
  rw [serviceVectorOf_bit_inc, hcnt, Bool.false_and] at hinc
  cases hinc

/-- In the reference build the block that requests a possible vector has that vector in an IDLE cycle. -/
theorem serviceVectorOf_requesting : ∀ v : SvWord, v ≠ 0b100#3 → v ≠ 0b101#3 →
    ((resetBlock referenceConfig).requesting v).serviceVectorOf 0x00#7 = v := by decide

/-- Settles O6: the two impossible vectors have bit 2 without bit 1; the others are requested of the reset block. -/
theorem impossibleServiceVectorsNeverOccur : Obligations.ImpossibleServiceVectorsNeverOccur :=
  ⟨fun _ b w => ⟨serviceVectorOf_ne b w rfl rfl, serviceVectorOf_ne b w rfl rfl⟩,
    fun v h4 h5 => ⟨_, 0x00#7, serviceVectorOf_requesting v h4 h5⟩⟩

end Sys2Proof.Machine
end

section
/-! The step (60_exceptions.md R170, R178): it always answers, and what it leaves alone. -/

namespace Sys2Proof.Machine

section sample

variable (s : State)

@[simp] theorem sample_snd_inputs : s.sample.2.inputs = s.inputs.tail := by
  obtain ⟨cfg, blk, inputs, n⟩ := s
  cases inputs <;> rfl

@[simp] theorem sample_snd_freeInputs :
    s.sample.2.freeInputs = s.freeInputs + if s.inputs = [] then 1 else 0 := by
  obtain ⟨cfg, blk, inputs, n⟩ := s
  cases inputs with
  | nil => rfl
  | cons w rest => rw [if_neg (List.cons_ne_nil w rest)]; rfl

end sample

/-- An operation answers the state with another block: it has no other result, and touches nothing else. -/
theorem exec_eq_withBlock (i : Instr) (s : State) : ∃ b, exec i s = .next (s.withBlock b) := by
  cases i with
  | rst ignored => exact ⟨_, exec_rst s ignored⟩
  | ctrlWr wdata dispEv cntEv => exact ⟨_, exec_ctrlWr s wdata dispEv cntEv⟩
  | dispEv wdata ctrlWe cntEv => exact ⟨_, exec_dispEv s wdata ctrlWe cntEv⟩
  | cntEv wdata ctrlWe dispEv => exact ⟨_, exec_cntEv s wdata ctrlWe dispEv⟩
  | idle wdata => exact ⟨_, exec_idle s wdata⟩
  | dispSvc => exact ⟨_, exec_dispSvc s⟩
  | cntSvc => exact ⟨_, exec_cntSvc s⟩
  | inc => exact ⟨_, exec_inc s⟩

/-- Settles O8: by `step`'s definition, for a placed word and for a free one. -/
theorem stepRunsDecodedInstruction : Obligations.StepRunsDecodedInstruction :=
  ⟨fun s w rest => ⟨decodeIn w, rfl, step_cons s w rest⟩, fun _ => ⟨_, rfl, rfl⟩⟩

/-- Settles O9: the decoded operation answers the sampled state with another block. -/
theorem stepAlwaysAnswersNextState : Obligations.StepAlwaysAnswersNextState := by
  intro s
  obtain ⟨b, h⟩ := exec_eq_withBlock (decodeIn s.sample.1) s.sample.2
  exact ⟨_, h, sample_snd_inputs s, sample_snd_freeInputs s⟩

/-- Settles O44: an operation replaces the block alone, and a step is one operation on the sampled state. -/
theorem configurationNeverChanges : Obligations.ConfigurationNeverChanges := by
  refine ⟨fun s t h => ?_, fun i s t h => ?_⟩
  · obtain ⟨_, _, _, rfl | rfl⟩ := step_cases h
    · rfl
    · rfl
  · obtain ⟨b, hexec⟩ := exec_eq_withBlock i s
    cases hexec.symm.trans h
    exact ⟨rfl, rfl, rfl⟩

end Sys2Proof.Machine
end

section
/-! The enables over a clock edge (43_interrupt_synchronizer.md R145). -/

namespace Sys2Proof.Machine

section enables

variable {cfg : Config} (b : Block cfg) {st : Strobes}

theorem clockEdge_ctrl_of_not_write (hwe : st.ctrlWe = false) : (b.clockEdge st).ctrl = b.ctrl := by
  rw [clockEdge_ctrl, hwe]
  rfl

theorem clockEdge_gie (hwe : st.ctrlWe = false) : (b.clockEdge st).gie = b.gie :=
  congrArg (·.getLsbD 0) (clockEdge_ctrl_of_not_write b hwe)

theorem clockEdge_den (hwe : st.ctrlWe = false) : (b.clockEdge st).den = b.den :=
  congrArg (·.getLsbD 1) (clockEdge_ctrl_of_not_write b hwe)

theorem clockEdge_cen (hwe : st.ctrlWe = false) : (b.clockEdge st).cen = b.cen :=
  congrArg (·.getLsbD 2) (clockEdge_ctrl_of_not_write b hwe)

end enables

end Sys2Proof.Machine
end

section
/-! Counting (42_counter_engine.md): the laws of INC (R123, R125), and the cadence of serviced count events (R127). -/

namespace Sys2Proof.Machine

/-! The laws of INC. -/

section inc

variable (d : DigitFile)

/-- The carry into a position is set exactly when every less significant digit is 9. -/
theorem carryInto_eq_decide (i : Pos) :
    d.carryInto i = decide (∀ j : Pos, i < j → (d.read j).val = 9) := by
  match i with
  | 0 =>
    simp [DigitFile.carryInto, DigitFile.carryThousands, DigitFile.carryHundreds, DigitFile.carryTens, digitAdd_carry,
      Fin.forall_fin_succ, DigitFile.read, Bool.and_comm]
  | 1 =>
    simp [DigitFile.carryInto, DigitFile.carryHundreds, DigitFile.carryTens, digitAdd_carry, Fin.forall_fin_succ,
      DigitFile.read, Bool.and_comm]
  | 2 => simp [DigitFile.carryInto, DigitFile.carryTens, digitAdd_carry, Fin.forall_fin_succ, DigitFile.read]
  | 3 => simp [DigitFile.carryInto, Fin.forall_fin_succ]

/-- A digit after INC is the old one with its carry in, modulo 10. -/
theorem bcdInc_read_val (i : Pos) :
    ((bcdInc d).read i).val = ((d.read i).val + (d.carryInto i).toNat) % 10 := by
  rw [bcdInc_read, digitAdd_val]

end inc

/-- Settles O22: each digit takes its carry in, which is that of the nines below it. -/
theorem incrementPerDigitLaw : Obligations.IncrementPerDigitLaw := by
  intro s
  refine ⟨_, exec_inc s, fun i => ?_⟩
  rw [withBlock_blk, incWrites_d, bcdInc_read_val, carryInto_eq_decide]
  split
  next hnines => rw [decide_eq_true hnines]; rfl
  next hnines => rw [decide_eq_false hnines]; rfl

/-- Settles O23: the value of the digits INC writes. -/
theorem incrementAddsOneModulo10000 : Obligations.IncrementAddsOneModulo10000 :=
  fun s => ⟨_, exec_inc s, bcdInc_value s.blk.d, value_lt (bcdInc s.blk.d)⟩

/-! The ticks counted (R127). -/

section ticks

variable {cfg : Config} (b : Block cfg)

theorem ticks_lt : b.ticks < 10000 * cfg.trigger := by
  have hy := b.y.isLt
  have hv : cfg.trigger * (b.d.value + 1) ≤ cfg.trigger * 10000 := Nat.mul_le_mul_left _ (value_lt b.d)
  rw [Block.ticks]
  linarith

/-- The ticks are the digits' value and the accumulator as quotient and remainder by `TRIGGER`. -/
theorem ticks_div_trigger : b.ticks / cfg.trigger = b.d.value := by
  rw [Block.ticks, Nat.mul_add_div cfg.trigger_pos, Nat.div_eq_of_lt b.y.isLt, Nat.add_zero]

theorem ticks_mod_trigger : b.ticks % cfg.trigger = b.y.val := by
  rw [Block.ticks, Nat.mul_add_mod, Nat.mod_eq_of_lt b.y.isLt]

/-- A count service is one tick more, modulo the period of the counter. -/
theorem clockEdge_ticks_of_csvc {st : Strobes} (hcsvc : b.csvc st.cntEv = true) :
    (b.clockEdge st).ticks = (b.ticks + 1) % (10000 * cfg.trigger) := by
  have hlt := ticks_lt b
  rw [Block.ticks, clockEdge_d, clockEdge_y, if_pos hcsvc, if_pos hcsvc, cntSvcWrites_d, cntSvcWrites_y_val]
  by_cases htrigger : b.y.val + 1 = cfg.trigger
  · have hticks : b.ticks + 1 = cfg.trigger * (b.d.value + 1) := by
      rw [Block.ticks, Nat.add_assoc, htrigger, Nat.mul_succ]
    rw [if_pos htrigger, if_pos htrigger, bcdInc_value, hticks, Nat.mul_comm 10000, Nat.mul_mod_mul_left, Nat.add_zero]
  · have hbelow := b.y_succ_lt htrigger
    rw [if_neg htrigger, if_neg htrigger]
    exact (Nat.mod_eq_of_lt (ticks_lt { b with y := ⟨b.y.val + 1, hbelow⟩ })).symm

/-- Clock edges of count events with the counter enabled and no control write: each is a service, so a tick. -/
theorem iterate_clockEdge_ticks {st : Strobes} (hev : st.cntEv = true) (hwe : st.ctrlWe = false) (k : Nat)
    (hgie : b.gie = true) (hcen : b.cen = true) :
    ((·.clockEdge st)^[k] b).ticks = (b.ticks + k) % (10000 * cfg.trigger) := by
  induction k generalizing b with
  | zero => exact (Nat.mod_eq_of_lt (ticks_lt b)).symm
  | succ k ih =>
    have hcsvc : b.csvc st.cntEv = true := by rw [hev, csvc_of_event, hgie, hcen]; rfl
    rw [Function.iterate_succ_apply, ih _ ((clockEdge_gie b hwe).trans hgie) ((clockEdge_cen b hwe).trans hcen),
      clockEdge_ticks_of_csvc b hcsvc, Nat.mod_add_mod, Nat.add_assoc, Nat.add_comm 1]

end ticks

/-- Repeated CNT_EVs are repeated clock edges. -/
theorem repeatExec_cntEv (wdata : CtrlWord) (ctrlWe dispEv : Bool) (k : Nat) (s : State) :
    repeatExec (.cntEv wdata ctrlWe dispEv) k s =
      .next (s.withBlock ((·.clockEdge ⟨ctrlWe, wdata, dispEv, true⟩)^[k] s.blk)) := by
  induction k generalizing s with
  | zero => rfl
  | succ k ih => rw [repeatExec_succ (exec_cntEv ..), ih]; rfl

/-- Settles O25: from 0 ticks there are `k` modulo the period, and the digits and the accumulator are their quotient and
remainder by `TRIGGER`. -/
theorem counterCadence : Obligations.CounterCadence := by
  intro k wdata dispEv s hgie hcen
  have hticks := iterate_clockEdge_ticks s.blk (st := ⟨false, wdata, dispEv, true⟩) rfl rfl k hgie hcen
  refine ⟨_, repeatExec_cntEv wdata false dispEv k s, hticks, fun hd hy => ?_⟩
  have hzero : s.blk.ticks = 0 := by rw [Block.ticks, hd, hy]; rfl
  rw [hzero, Nat.zero_add] at hticks
  constructor
  · rw [← ticks_div_trigger, hticks, Nat.mod_mul_left_div_self]
  · rw [← ticks_mod_trigger, hticks, Nat.mod_mul_left_mod]

end Sys2Proof.Machine
end

section
/-! The display multiplexer (41_display_multiplexer.md): several services (R103), the selected line (R104), and the
glyph tables (R101). -/

namespace Sys2Proof.Machine

/-- The cursor `k` up is the position of that number modulo 4. -/
theorem pos_add_val (x : Pos) (k : Nat) : (x + Fin.ofNat 4 k).val = (x.val + k) % 4 := by
  rw [Fin.val_add, Fin.val_ofNat, Nat.add_mod_mod]

/-- Settles O26: with no service nothing moves; after `k + 1` the cursor is `k + 1` up, and the outputs show the
position `k` up. -/
theorem displayCursorPeriodicity : Obligations.DisplayCursorPeriodicity := by
  intro k s
  cases k with
  | zero =>
    exact ⟨s.blk, rfl, (Nat.mod_eq_of_lt s.blk.x.isLt).symm, fun h => (nomatch h), rfl, fun _ h => (nomatch h)⟩
  | succ k =>
    refine ⟨s.blk.afterDispSvcs k, repeatExec_dispSvc k s, pos_add_val s.blk.x (k + 1), fun hfour => ?_, rfl,
      fun p _ hp => ?_⟩
    · have hround : s.blk.x + Fin.ofNat 4 (k + 1) = s.blk.x := by
        rw [hfour]
        exact Fin.add_zero s.blk.x
      exact hround
    · obtain rfl : p = s.blk.x + Fin.ofNat 4 k := Fin.ext (hp.trans (pos_add_val s.blk.x k).symm)
      exact ⟨rfl, rfl⟩

/-- Settles O27: the row written is that of the cursor, and a row is low at its own position. -/
theorem exactlyOneLineSelected : Obligations.ExactlyOneLineSelected := by
  intro s
  refine ⟨_, exec_dispSvc s, fun i => ?_⟩
  rw [withBlock_blk, dispSvcWrites_selOut, Block.selAtCursor, selRom_getLsbD, Bool.not_eq_false', decide_eq_true_iff]

/-- The reference table lights the listed segments and no others, digit by digit. -/
theorem glyphRefAH_segments (g : Digit) (seg : Segment) :
    (glyphRefAH.get g).getLsbD (segmentBit seg) = decide (seg ∈ segmentsLit g) := by
  revert g
  cases seg <;> decide

/-- The active-low table is the complement, and the decimal point is off. -/
theorem glyphRefAL_complement : ∀ g : Digit,
    glyphRefAL.get g = ~~~(glyphRefAH.get g) ∧ (glyphRefAH.get g).getLsbD 7 = false := by decide

/-- Settles O29: the two tables entry by entry; reset carries the active-high one. -/
theorem referenceGlyphs : Obligations.ReferenceGlyphs :=
  ⟨rfl, glyphRefAH_segments, glyphRefAL_complement, rfl⟩

end Sys2Proof.Machine
end

section
/-! The cycle as a whole (43_interrupt_synchronizer.md R149 to R151): what each source's half of a clock edge does with
its request served and with it masked, and on what the half depends. -/

namespace Sys2Proof.Machine

/-! One source's half of a clock edge. -/

section halves

variable {cfg : Config} (b : Block cfg) {st : Strobes}

/-- The display half is DISP_SVC's writes, or nothing. -/
theorem clockEdge_display : ((b.clockEdge st).selOut, (b.clockEdge st).segOut, (b.clockEdge st).x) =
    if b.dsvc st.dispEv then ((b.dispSvcWrites b).selOut, (b.dispSvcWrites b).segOut, (b.dispSvcWrites b).x)
    else (b.selOut, b.segOut, b.x) := by
  rw [clockEdge_selOut, clockEdge_segOut, clockEdge_x]
  cases b.dsvc st.dispEv with
  | true => rfl
  | false => rfl

/-- The count half is CNT_SVC's writes, or nothing. -/
theorem clockEdge_count : ((b.clockEdge st).d, (b.clockEdge st).y) =
    if b.csvc st.cntEv then ((b.cntSvcWrites b).d, (b.cntSvcWrites b).y) else (b.d, b.y) := by
  rw [clockEdge_d, clockEdge_y]
  cases b.csvc st.cntEv with
  | true => rfl
  | false => rfl

variable {b}

theorem clockEdge_of_not_dsvc (h : b.dsvc st.dispEv = false) :
    (b.clockEdge st).x = b.x ∧ (b.clockEdge st).selOut = b.selOut ∧ (b.clockEdge st).segOut = b.segOut := by
  obtain ⟨-, -, -, hhold⟩ := clockEdge_displaySourceCycle b st
  obtain ⟨hsel, hseg, hx⟩ := hhold h
  exact ⟨hx, hsel, hseg⟩

theorem clockEdge_of_not_csvc (h : b.csvc st.cntEv = false) :
    (b.clockEdge st).d = b.d ∧ (b.clockEdge st).y = b.y := by
  obtain ⟨-, -, -, -, hhold⟩ := clockEdge_countSourceCycle b st
  obtain ⟨hy, hd⟩ := hhold h
  exact ⟨hd, hy⟩

/-- A CNT_SVC counts the accumulator up modulo `TRIGGER`. -/
theorem cntSvcWrites_y_val_mod (b post : Block cfg) :
    (b.cntSvcWrites post).y.val = (b.y.val + 1) % cfg.trigger := by
  rw [cntSvcWrites_y_val]
  split
  next htrigger => rw [htrigger, Nat.mod_self]
  next hbelow => rw [Nat.mod_eq_of_lt (b.y_succ_lt hbelow)]

/-- A served display request is cleared, raises the strobe, and shows and advances the cursor. -/
theorem clockEdge_of_dsvc (h : b.dsvc st.dispEv = true) :
    (b.clockEdge st).pendD = false ∧ (b.clockEdge st).rldD = true ∧ (b.clockEdge st).selOut = selRom b.x ∧
      (b.clockEdge st).x = b.x + 1 := by
  rw [clockEdge_pendD, clockEdge_rldD, clockEdge_selOut, clockEdge_x, h]
  exact ⟨Bool.and_false _, rfl, rfl, rfl⟩

/-- A served count request is cleared, raises the strobe, and counts the accumulator. -/
theorem clockEdge_of_csvc (h : b.csvc st.cntEv = true) :
    (b.clockEdge st).pendC = false ∧ (b.clockEdge st).rldC = true ∧
      (b.clockEdge st).y.val = (b.y.val + 1) % cfg.trigger := by
  rw [clockEdge_pendC, clockEdge_rldC, clockEdge_y, h]
  exact ⟨Bool.and_false _, rfl, cntSvcWrites_y_val_mod b b⟩

/-- A masked display source is not served, whatever its requests. -/
theorem dsvc_of_masked (hmask : (b.gie && b.den) = false) (dispEv : Bool) : b.dsvc dispEv = false := by
  rw [Block.dsvc, Bool.and_assoc, hmask, Bool.and_false]

/-- A masked count source is not served, whatever its requests. -/
theorem csvc_of_masked (hmask : (b.gie && b.cen) = false) (cntEv : Bool) : b.csvc cntEv = false := by
  rw [Block.csvc, Bool.and_assoc, hmask, Bool.and_false]

/-- A masked display request is kept (R142), and the strobe is low. -/
theorem clockEdge_pendD_of_masked (hmask : (b.gie && b.den) = false) :
    (b.clockEdge st).pendD = (b.pendD || st.dispEv) ∧ (b.clockEdge st).rldD = false := by
  rw [clockEdge_pendD, clockEdge_rldD, dsvc_of_masked hmask]
  exact ⟨Bool.and_true _, rfl⟩

/-- A masked count request is kept (R142), and the strobe is low. -/
theorem clockEdge_pendC_of_masked (hmask : (b.gie && b.cen) = false) :
    (b.clockEdge st).pendC = (b.pendC || st.cntEv) ∧ (b.clockEdge st).rldC = false := by
  rw [clockEdge_pendC, clockEdge_rldC, csvc_of_masked hmask]
  exact ⟨Bool.and_true _, rfl⟩

/-- A pending display request is served when its enables are on, whatever the word's events are. -/
theorem dsvc_of_pending (hpend : b.pendD = true) (hgie : b.gie = true) (hden : b.den = true) (dispEv : Bool) :
    b.dsvc dispEv = true := by
  rw [Block.dsvc, Block.reqD, hpend, hgie, hden]
  rfl

/-- A pending count request is served when its enables are on, whatever the word's events are. -/
theorem csvc_of_pending (hpend : b.pendC = true) (hgie : b.gie = true) (hcen : b.cen = true) (cntEv : Bool) :
    b.csvc cntEv = true := by
  rw [Block.csvc, Block.reqC, hpend, hgie, hcen]
  rfl

end halves

/-- A step on a word without RST is the clock edge of its strobes. -/
theorem step_cons_of_not_rst {w : InWord} (hrst : w.getLsbD 6 = false) (s : State) (rest : List InWord) :
    step { s with inputs := w :: rest } =
      .next { s with inputs := rest, blk := s.blk.clockEdge (strobesOf w) } :=
  exec_decodeIn hrst _

/-- Settles O33: each half of the clock edge is decided by its bit of the service vector. -/
theorem cyclePerformsItsServiceVector : Obligations.CyclePerformsItsServiceVector := by
  intro s w rest hrst
  obtain ⟨bitD, bitC, -⟩ := serviceVectorOf_bits_of_not_rst s.blk hrst
  rw [bitD, bitC]
  exact ⟨_, _, _, step_cons_of_not_rst hrst s rest, exec_dispSvc s, exec_cntSvc s, clockEdge_display s.blk,
    clockEdge_count s.blk⟩

/-- Settles O40: without their service the halves hold; the digits hold in a CNT_SVC below the trigger too. -/
theorem registersHoldWithoutTheirOwner : Obligations.RegistersHoldWithoutTheirOwner := by
  intro s w rest hrst
  obtain ⟨bitD, bitC, bitInc⟩ := serviceVectorOf_bits_of_not_rst s.blk hrst
  rw [bitD, bitC, bitInc]
  refine ⟨_, step_cons_of_not_rst hrst s rest, fun hinc => ?_, fun hcnt => (clockEdge_of_not_csvc hcnt).2,
    clockEdge_of_not_dsvc (st := strobesOf w), fun hwe => clockEdge_ctrl_of_not_write s.blk hwe⟩
  cases hcsvc : s.blk.csvc (w.getLsbD 0) with
  | false => exact (clockEdge_of_not_csvc hcsvc).1
  | true =>
    have hbelow : ¬ s.blk.y.val + 1 = s.cfg.trigger := by
      rw [hcsvc, Bool.true_and, atTrigger_eq_decide] at hinc
      exact of_decide_eq_false hinc
    have hd := clockEdge_d s.blk (strobesOf w)
    rw [cntSvcWrites_d, if_neg hbelow, ite_self] at hd
    exact hd

/-! Requests held and released (R142; 70_reset_and_hazards.md R194, R195). -/

/-- The run on a word without RST goes on from the clock edge of its strobes. -/
theorem runWords_cons {w : InWord} (hrst : w.getLsbD 6 = false) (ws : List InWord) (s : State) :
    runWords (w :: ws) s = runWords ws { s with inputs := ws, blk := s.blk.clockEdge (strobesOf w) } := by
  rw [runWords, step_cons_of_not_rst hrst]

/-- Settles O34, by induction on the words: an edge without a control write keeps the enables, so a masked source stays
masked, with its request kept and its unit standing still. -/
theorem maskedRequestIsHeld : Obligations.MaskedRequestIsHeld := by
  intro ws
  induction ws with
  | nil =>
    intro s _
    exact ⟨s, rfl, rfl, fun hpend _ => ⟨hpend, rfl, rfl, rfl⟩, fun hpend _ => ⟨hpend, rfl, rfl⟩⟩
  | cons w ws ih =>
    intro s hws
    obtain ⟨hrst, hwe⟩ := hws w List.mem_cons_self
    obtain ⟨t, hrun, hctrl, hdisp, hcnt⟩ := ih { s with inputs := ws, blk := s.blk.clockEdge (strobesOf w) }
      fun v hv => hws v (List.mem_cons_of_mem w hv)
    have hgie := clockEdge_gie s.blk (st := strobesOf w) hwe
    refine ⟨t, (runWords_cons hrst ws s).trans hrun, hctrl.trans (clockEdge_ctrl_of_not_write s.blk hwe),
      fun hpend hmask => ?_, fun hpend hmask => ?_⟩
    · obtain ⟨hpend', -⟩ := clockEdge_pendD_of_masked (st := strobesOf w) hmask
      obtain ⟨hx', hsel', hseg'⟩ := clockEdge_of_not_dsvc (st := strobesOf w) (dsvc_of_masked hmask _)
      obtain ⟨hpendD, hx, hsel, hseg⟩ := hdisp (by rw [hpend', hpend]; rfl)
        (by rw [hgie, clockEdge_den s.blk hwe, hmask])
      exact ⟨hpendD, hx.trans hx', hsel.trans hsel', hseg.trans hseg'⟩
    · obtain ⟨hpend', -⟩ := clockEdge_pendC_of_masked (st := strobesOf w) hmask
      obtain ⟨hd', hy'⟩ := clockEdge_of_not_csvc (st := strobesOf w) (csvc_of_masked hmask _)
      obtain ⟨hpendC, hd, hy⟩ := hcnt (by rw [hpend', hpend]; rfl)
        (by rw [hgie, clockEdge_cen s.blk hwe, hmask])
      exact ⟨hpendC, hd.trans hd', hy.trans (congrArg Fin.val hy')⟩

/-- Settles O35: the write's edge keeps the masked request and sets the enables, so the next edge serves it. -/
theorem enablingReleasesPendingRequests : Obligations.EnablingReleasesPendingRequests := by
  intro s wdata dispEv cntEv w hrst
  have hctrl : (s.blk.clockEdge ⟨true, wdata, dispEv, cntEv⟩).ctrl = wdata := clockEdge_ctrl ..
  refine ⟨_, _, exec_ctrlWr s wdata dispEv cntEv, exec_decodeIn hrst _, fun hmask => ?_, fun hmask => ?_⟩
  · obtain ⟨hpend, hrld⟩ := clockEdge_pendD_of_masked (st := ⟨true, wdata, dispEv, cntEv⟩) hmask
    obtain ⟨hx, -⟩ := clockEdge_of_not_dsvc (st := ⟨true, wdata, dispEv, cntEv⟩) (dsvc_of_masked hmask _)
    refine ⟨hpend, hrld, hx, fun hreq hgie hden => ?_⟩
    have hdsvc := dsvc_of_pending (hpend.trans hreq) ((congrArg (·.getLsbD 0) hctrl).trans hgie)
      ((congrArg (·.getLsbD 1) hctrl).trans hden) (dispEvField w)
    obtain ⟨hpend', hrld', hsel', hx'⟩ := clockEdge_of_dsvc (st := strobesOf w) hdsvc
    rw [hx] at hsel' hx'
    exact ⟨hpend', hrld', hsel', (congrArg Fin.val hx').trans (pos_add_one_val s.blk.x)⟩
  · obtain ⟨hpend, hrld⟩ := clockEdge_pendC_of_masked (st := ⟨true, wdata, dispEv, cntEv⟩) hmask
    obtain ⟨-, hy⟩ := clockEdge_of_not_csvc (st := ⟨true, wdata, dispEv, cntEv⟩) (csvc_of_masked hmask _)
    refine ⟨hpend, hrld, congrArg Fin.val hy, fun hreq hgie hcen => ?_⟩
    have hcsvc := csvc_of_pending (hpend.trans hreq) ((congrArg (·.getLsbD 0) hctrl).trans hgie)
      ((congrArg (·.getLsbD 2) hctrl).trans hcen) (cntEvField w)
    obtain ⟨hpend', hrld', hy'⟩ := clockEdge_of_csvc (st := strobesOf w) hcsvc
    rw [hy] at hy'
    exact ⟨hpend', hrld', hy'⟩

/-- Settles O37: the two edges are the same but for CTRL_WR's write, which comes last. -/
theorem ctrlWriteTakesEffectNextCycle : Obligations.CtrlWriteTakesEffectNextCycle :=
  fun s wdata dispEv cntEv => ⟨_, _, exec_decodeIn_packIn wdata true dispEv cntEv s,
    exec_decodeIn_packIn wdata false dispEv cntEv s, clockEdge_ctrl_of_not_write s.blk rfl, rfl⟩

/-! Merged events (R151). -/

section merge

/-- With a display request pending an edge does not depend on the display event. -/
theorem clockEdge_dispEv_irrel {cfg : Config} {b : Block cfg} (hpend : b.pendD = true) (st : Strobes) (ev ev' : Bool) :
    b.clockEdge { st with dispEv := ev } = b.clockEdge { st with dispEv := ev' } := by
  have hreq : b.reqD ev = b.reqD ev' := by rw [Block.reqD, Block.reqD, hpend]; rfl
  have hsvc : b.dsvc ev = b.dsvc ev' := by rw [Block.dsvc, Block.dsvc, hreq]
  simp only [Block.clockEdge, Block.syncWrites, Block.ctrlWrites, hreq, hsvc]

/-- With a count request pending an edge does not depend on the count event. -/
theorem clockEdge_cntEv_irrel {cfg : Config} {b : Block cfg} (hpend : b.pendC = true) (st : Strobes) (ev ev' : Bool) :
    b.clockEdge { st with cntEv := ev } = b.clockEdge { st with cntEv := ev' } := by
  have hreq : b.reqC ev = b.reqC ev' := by rw [Block.reqC, Block.reqC, hpend]; rfl
  have hsvc : b.csvc ev = b.csvc ev' := by rw [Block.csvc, Block.csvc, hreq]
  simp only [Block.clockEdge, Block.syncWrites, Block.ctrlWrites, hreq, hsvc]

/-- Two words that agree on RST, with one effect if it is 0, have one step. -/
theorem step_cons_congr {s : State} {w v : InWord} (hrst : w.getLsbD 6 = v.getLsbD 6)
    (hedge : s.blk.clockEdge (strobesOf w) = s.blk.clockEdge (strobesOf v)) (rest : List InWord) :
    step { s with inputs := w :: rest } = step { s with inputs := v :: rest } := by
  cases hw : w.getLsbD 6 with
  | true => rw [step_cons_of_rst hw, step_cons_of_rst (hrst ▸ hw)]
  | false => rw [step_cons_of_not_rst hw, step_cons_of_not_rst (hrst ▸ hw), hedge]

theorem strobesOf_setDispEv : ∀ w : InWord,
    strobesOf (w ||| 0b0000010#7) = { strobesOf w with dispEv := true } := by decide

theorem strobesOf_clearDispEv : ∀ w : InWord,
    strobesOf (w &&& 0b1111101#7) = { strobesOf w with dispEv := false } := by decide

theorem strobesOf_setCntEv : ∀ w : InWord,
    strobesOf (w ||| 0b0000001#7) = { strobesOf w with cntEv := true } := by decide

theorem strobesOf_clearCntEv : ∀ w : InWord,
    strobesOf (w &&& 0b1111110#7) = { strobesOf w with cntEv := false } := by decide

/-- Setting and clearing an event bit leave the RST bit. -/
theorem rstBit_set_eq_clear : ∀ w : InWord,
    (w ||| 0b0000010#7).getLsbD 6 = (w &&& 0b1111101#7).getLsbD 6 ∧
    (w ||| 0b0000001#7).getLsbD 6 = (w &&& 0b1111110#7).getLsbD 6 := by decide

end merge

/-- Settles O36: the two words differ in one event strobe, on which the edge does not depend while its source is
pending. -/
theorem mergedEventIsLost : Obligations.MergedEventIsLost := by
  intro s w rest
  obtain ⟨hrstD, hrstC⟩ := rstBit_set_eq_clear w
  refine ⟨fun hpend => step_cons_congr hrstD ?_ rest, fun hpend => step_cons_congr hrstC ?_ rest⟩
  · rw [strobesOf_setDispEv, strobesOf_clearDispEv]
    exact clockEdge_dispEv_irrel hpend _ _ _
  · rw [strobesOf_setCntEv, strobesOf_clearCntEv]
    exact clockEdge_cntEv_irrel hpend _ _ _

/-! Independence of a cycle's operations (R150; 60_exceptions.md R175). -/

/-- Settles O38: no register is written by two of the operations; CNT_SVC's are those of its two branches. -/
theorem writesOfACycleCommute : Obligations.WritesOfACycleCommute := by
  intro cfg st pre post
  by_cases htrigger : pre.y.val + 1 = cfg.trigger
  · simp only [cntSvcWrites_of_trigger _ _ htrigger]
    exact ⟨rfl, rfl, rfl, rfl, rfl, rfl⟩
  · simp only [cntSvcWrites_of_not_trigger _ _ htrigger]
    exact ⟨rfl, rfl, rfl, rfl, rfl, rfl⟩

/-- Settles O41: each register of a half is a function of the half's own registers, its event and `CTRL`. -/
theorem sourcesDoNotInterfere : Obligations.SourcesDoNotInterfere := by
  intro cfg b c stb stc hctrl
  refine ⟨fun hpend hev hd hx hsel hseg => ?_, fun hpend hev hd hy => ?_⟩
  · have hreq : b.reqD stb.dispEv = c.reqD stc.dispEv := by rw [Block.reqD, Block.reqD, hpend, hev]
    have hsvc : b.dsvc stb.dispEv = c.dsvc stc.dispEv := by
      rw [dsvc_eq_ctrl_bits, dsvc_eq_ctrl_bits, hpend, hev, hctrl]
    simp only [clockEdge_pendD, clockEdge_rldD, clockEdge_x, clockEdge_selOut, clockEdge_segOut, Block.selAtCursor,
      Block.glyphAtCursor, hreq, hsvc, hd, hx, hsel, hseg, and_self]
  · have hreq : b.reqC stb.cntEv = c.reqC stc.cntEv := by rw [Block.reqC, Block.reqC, hpend, hev]
    have hsvc : b.csvc stb.cntEv = c.csvc stc.cntEv := by
      rw [csvc_eq_ctrl_bits, csvc_eq_ctrl_bits, hpend, hev, hctrl]
    have hcount : (b.cntSvcWrites b).y = (c.cntSvcWrites c).y :=
      Fin.ext (by rw [cntSvcWrites_y_val, cntSvcWrites_y_val, hy])
    simp only [clockEdge_pendC, clockEdge_rldC, clockEdge_d, clockEdge_y, cntSvcWrites_d, hcount, hreq, hsvc, hd, hy,
      and_self]

end Sys2Proof.Machine
end

section
/-! The invariant of the registers (10_state.md R36; 41_display_multiplexer.md R104; 43_interrupt_synchronizer.md R142,
R143): reset has it, and a clock edge keeps it. -/

namespace Sys2Proof.Machine

section coherent

variable {cfg : Config}

theorem resetBlock_coherent (cfg : Config) : (resetBlock cfg).Coherent :=
  ⟨.inl ⟨rfl, rfl, rfl, rfl⟩, fun ⟨hpend, _⟩ => (nomatch hpend), fun ⟨hpend, _⟩ => (nomatch hpend)⟩

variable {b : Block cfg} (st : Strobes)

/-- A service selects the row of the position it leaves, with a digit's glyph; without one the outputs and the cursor
stand, and the strobe is low. -/
theorem clockEdge_displayCoherent (h : DisplayCoherent b) : DisplayCoherent (b.clockEdge st) := by
  cases hsvc : b.dsvc st.dispEv with
  | true =>
    obtain ⟨-, -, hsel, hx⟩ := clockEdge_of_dsvc hsvc
    refine .inr ⟨?_, b.d.read b.x, ?_⟩
    · rw [hsel, hx, add_sub_cancel_right]
    · rw [clockEdge_segOut, hsvc]
      rfl
  | false =>
    obtain ⟨hx, hsel, hseg⟩ := clockEdge_of_not_dsvc hsvc
    rw [DisplayCoherent, hx, hsel, hseg, clockEdge_rldD, hsvc]
    obtain ⟨hnone, hzero, hblank, -⟩ | hshown := h
    · exact .inl ⟨hnone, hzero, hblank, rfl⟩
    · exact .inr hshown

/-- A request that is served is not kept. -/
theorem not_kept_and_served (req svc : Bool) : ¬((req && !svc) = true ∧ svc = true) := by
  rintro ⟨hkept, rfl⟩
  rw [Bool.not_true, Bool.and_false] at hkept
  cases hkept

/-- A pending flag is written with the request that was not served, the strobe with the one that was. -/
theorem clockEdge_sourcesCoherent (b : Block cfg) : SourcesCoherent (b.clockEdge st) := by
  rw [SourcesCoherent, clockEdge_pendD, clockEdge_pendC, clockEdge_rldD, clockEdge_rldC]
  exact ⟨not_kept_and_served _ _, not_kept_and_served _ _⟩

end coherent

/-- Settles O42: `State.reset` carries the reference build's `S_RESET`. -/
theorem coherentAtReset : Obligations.CoherentAtReset :=
  ⟨resetBlock_coherent, resetBlock_coherent referenceConfig⟩

/-- Settles O43: a step resets the block or takes one clock edge. -/
theorem stepKeepsCoherent : Obligations.StepKeepsCoherent := by
  intro s t hcoherent hstep
  obtain ⟨hdisplay, -⟩ := hcoherent
  obtain ⟨w, _, _, rfl | rfl⟩ := step_cases hstep
  · exact resetBlock_coherent s.cfg
  · exact ⟨clockEdge_displayCoherent (strobesOf w) hdisplay, clockEdge_sourcesCoherent (strobesOf w) s.blk⟩

end Sys2Proof.Machine
end

section
/-! The accumulator's width and the packed registers (00_scope.md R5; 10_state.md R20). -/

namespace Sys2Proof.Machine

/-! `W_Y` is the least positive width for `0..TRIGGER-1`. -/

section accWidth

variable (cfg : Config)

theorem accWidth_pos : 1 ≤ accWidth cfg := by
  unfold accWidth
  split <;> omega

theorem trigger_le_two_pow_accWidth : cfg.trigger ≤ 2 ^ accWidth cfg := by
  unfold accWidth
  split
  next hsmall => simpa using hsmall
  next =>
    have hlt : cfg.trigger - 1 < 2 ^ ((cfg.trigger - 1).log2 + 1) := Nat.lt_log2_self
    omega

theorem accWidth_le {n : Nat} (hn : 1 ≤ n) (h : cfg.trigger ≤ 2 ^ n) : accWidth cfg ≤ n := by
  unfold accWidth
  split
  next => exact hn
  next hlarge =>
    have hlog : (cfg.trigger - 1).log2 < n := (Nat.log2_lt (by omega)).mpr (by omega)
    omega

/-- The fields of the state table add up to `37 + W_Y`. -/
theorem stateBits_eq : stateBits cfg = 37 + accWidth cfg := by
  unfold stateBits
  omega

end accWidth

/-! Packing loses nothing. -/

section packed

/-- A joined vector determines its two parts. -/
theorem bitVec_append_inj {m n : Nat} {a b : BitVec m} {c d : BitVec n} (h : a ++ c = b ++ d) : a = b ∧ c = d := by
  constructor
  · have hleft := congrArg (BitVec.extractLsb' n m) h
    rwa [BitVec.extractLsb'_append_eq_left, BitVec.extractLsb'_append_eq_left] at hleft
  · have hright := congrArg (BitVec.extractLsb' 0 n) h
    rwa [BitVec.extractLsb'_append_eq_right, BitVec.extractLsb'_append_eq_right] at hright

/-- A value of a range that fits the width is determined by its bits. -/
theorem fin_eq_of_ofNat_eq {n w : Nat} (hfit : n ≤ 2 ^ w) {i j : Fin n}
    (h : BitVec.ofNat w i.val = BitVec.ofNat w j.val) : i = j := by
  have hval := congrArg BitVec.toNat h
  rw [BitVec.toNat_ofNat, BitVec.toNat_ofNat, Nat.mod_eq_of_lt (i.isLt.trans_le hfit),
    Nat.mod_eq_of_lt (j.isLt.trans_le hfit)] at hval
  exact Fin.ext hval

theorem digitFile_packed_inj {d e : DigitFile} (h : d.packed = e.packed) : d = e := by
  obtain ⟨d0, d1, d2, d3⟩ := d
  obtain ⟨e0, e1, e2, e3⟩ := e
  obtain ⟨h, h3⟩ := bitVec_append_inj h
  obtain ⟨h, h2⟩ := bitVec_append_inj h
  obtain ⟨h0, h1⟩ := bitVec_append_inj h
  obtain rfl : d0 = e0 := fin_eq_of_ofNat_eq (by decide) h0
  obtain rfl : d1 = e1 := fin_eq_of_ofNat_eq (by decide) h1
  obtain rfl : d2 = e2 := fin_eq_of_ofNat_eq (by decide) h2
  obtain rfl : d3 = e3 := fin_eq_of_ofNat_eq (by decide) h3
  rfl

theorem block_packed_inj {cfg : Config} {b c : Block cfg} (h : b.packed = c.packed) : b = c := by
  obtain ⟨d, x, y, pendD, pendC, ctrl, selOut, segOut, rldD, rldC⟩ := b
  obtain ⟨d', x', y', pendD', pendC', ctrl', selOut', segOut', rldD', rldC'⟩ := c
  obtain ⟨h, hrldC⟩ := bitVec_append_inj h
  obtain ⟨h, hrldD⟩ := bitVec_append_inj h
  obtain ⟨h, rfl⟩ := bitVec_append_inj h
  obtain ⟨h, rfl⟩ := bitVec_append_inj h
  obtain ⟨h, rfl⟩ := bitVec_append_inj h
  obtain ⟨h, hpendC⟩ := bitVec_append_inj h
  obtain ⟨h, hpendD⟩ := bitVec_append_inj h
  obtain ⟨h, hy⟩ := bitVec_append_inj h
  obtain ⟨hd, hx⟩ := bitVec_append_inj h
  obtain rfl : d = d' := digitFile_packed_inj hd
  obtain rfl : x = x' := fin_eq_of_ofNat_eq (by decide) hx
  obtain rfl : y = y' := fin_eq_of_ofNat_eq (trigger_le_two_pow_accWidth cfg) hy
  obtain rfl : pendD = pendD' := BitVec.ofBool_eq_iff_eq.mp hpendD
  obtain rfl : pendC = pendC' := BitVec.ofBool_eq_iff_eq.mp hpendC
  obtain rfl : rldD = rldD' := BitVec.ofBool_eq_iff_eq.mp hrldD
  obtain rfl : rldC = rldC' := BitVec.ofBool_eq_iff_eq.mp hrldC
  rfl

end packed

/-- Settles O45: the width by the logarithm's bounds, the packing field by field. -/
theorem accumulatorWidth : Obligations.AccumulatorWidth :=
  ⟨fun cfg => ⟨trigger_le_two_pow_accWidth cfg, accWidth_pos cfg, fun _ => accWidth_le cfg⟩,
    fun cfg => ⟨stateBits_eq cfg, fun _ _ => block_packed_inj⟩, by decide, by decide⟩

end Sys2Proof.Machine
end

section
/-! The timers' contract (60_exceptions.md R179): while it is kept no two events of a source merge. -/

namespace Sys2Proof.Machine

section contract

variable {cfg : Config} {a : Arming} {b : Block cfg} {w : InWord}

/-- Timers at reset are coherent with the block, whichever were started: nothing is pending. -/
theorem arming_coherent_resetBlock (a : Arming) (cfg : Config) : a.Coherent (resetBlock cfg) :=
  ⟨fun hpend => (nomatch hpend), fun hpend => (nomatch hpend)⟩

/-- A pending source's timer may send no event, so none merges. -/
theorem noMerge_of_permits (hcoherent : a.Coherent b) (hpermits : a.Permits b w) : NoMerge b w := by
  obtain ⟨hdisp, hcnt⟩ := hcoherent
  obtain ⟨hallowD, hallowC⟩ := hpermits
  refine ⟨fun ⟨hpend, hev⟩ => ?_, fun ⟨hpend, hev⟩ => ?_⟩
  · obtain ⟨hdisarmed, hquiet⟩ := hdisp hpend
    exact absurd (hallowD hev) (by rw [hdisarmed, hquiet]; decide)
  · obtain ⟨hdisarmed, hquiet⟩ := hcnt hpend
    exact absurd (hallowC hev) (by rw [hdisarmed, hquiet]; decide)

/-- One source's timer over a cycle: a request that is kept was not served, so there is no reload; and it came with an
event, which disarms the timer, or was pending before, when the timer was not armed. -/
theorem timer_disarmed_of_kept {pend ev armed rld svc : Bool} (hpre : pend = true → armed = false ∧ rld = false)
    (hkept : ((pend || ev) && !svc) = true) : ((armed || rld) && !ev) = false ∧ svc = false := by
  obtain ⟨hreq, hsvc⟩ := Bool.and_eq_true_iff.mp hkept
  refine ⟨?_, (Bool.not_eq_true' _).mp hsvc⟩
  obtain hpend | rfl := Bool.or_eq_true_iff.mp hreq
  · obtain ⟨rfl, rfl⟩ := hpre hpend
    rfl
  · exact Bool.and_false _

/-- A clock edge keeps the timers coherent: each pending flag is written with a kept request. -/
theorem arming_after_coherent_clockEdge (hcoherent : a.Coherent b) :
    (a.after b w).Coherent (b.clockEdge (strobesOf w)) := by
  obtain ⟨hdisp, hcnt⟩ := hcoherent
  rw [Arming.Coherent, clockEdge_pendD, clockEdge_pendC, clockEdge_rldD, clockEdge_rldC]
  exact ⟨timer_disarmed_of_kept hdisp, timer_disarmed_of_kept hcnt⟩

end contract

/-- Settles O46: RST leaves nothing pending, and a clock edge keeps the timers coherent. -/
theorem contractKeepsTimersCoherent : Obligations.ContractKeepsTimersCoherent := by
  intro a s w rest hcoherent hpermits
  refine ⟨noMerge_of_permits hcoherent hpermits, ?_⟩
  obtain ⟨-, hstep⟩ | ⟨-, hstep⟩ := step_cons_cases s w rest
  · exact ⟨_, hstep, arming_coherent_resetBlock (a.after s.blk w) s.cfg⟩
  · exact ⟨_, hstep, arming_after_coherent_clockEdge hcoherent⟩

/-- Under the contract no cycle of a run merges, by induction on the words. -/
theorem neverMerges_of_keepsContract (ws : List InWord) (a : Arming) (s : State) (hcoherent : a.Coherent s.blk)
    (hkeeps : KeepsContract ws a s) : NeverMerges ws s := by
  induction ws generalizing a s with
  | nil => trivial
  | cons w ws ih =>
    obtain ⟨hpermits, hlater⟩ := hkeeps
    obtain ⟨hnomerge, t, hstep, hcoherent'⟩ := contractKeepsTimersCoherent a s w ws hcoherent hpermits
    refine ⟨hnomerge, fun u hu => ?_⟩
    cases hstep.symm.trans hu
    exact ih _ t hcoherent' (hlater t hstep)

/-- Settles O47: the runs from coherent timers, of which reset's are some. -/
theorem contractRulesOutMerges : Obligations.ContractRulesOutMerges :=
  ⟨neverMerges_of_keepsContract, fun ws a =>
    neverMerges_of_keepsContract ws a State.reset (arming_coherent_resetBlock a referenceConfig)⟩

end Sys2Proof.Machine
end
